-- ==== Sys2Proof/Word.lean ====
section
/-! DEFINITION. The plain types of the Okarja 7320: bus words, slot numbers, station numbers, word addresses.
The 7320 is a block with registers; it has no memory of bytes. -/

namespace Sys2Proof

/-- A word of the shelf bus: 32 bits (R175). -/
abbrev Word := BitVec 32

/-- A slot number, 0 to 3 (00 section 0.5). It names a master and its context. -/
abbrev Slot := Fin 4

/-- A station number, 0 to 127 (02 section 2.1). -/
abbrev StationNo := Fin 128

/-- A word address of the shelf bus: 1 MiB is 262,144 words (09 section 9.2). -/
abbrev WordAddress := BitVec 18

end Sys2Proof
end

