-- ==== Sys2Proof/Syntax.lean ====
section
/-! DEFINITION. The commands of the 7320: one constructor of `Instr` for each row of spec/opcode_table.json. -/

namespace Sys2Proof

/-- The direction of a shelf bus transaction (09 section 9.1). -/
inductive Direction where
  | read
  | write
  deriving DecidableEq, Repr

/-- What the address lines of an address phase carry, as received: the word address and the address parity bit
(09 section 9.1, R151). -/
structure AddressLines where
  word : WordAddress
  parity : Bool
  deriving DecidableEq, Repr

/-- The two lines that make a full reset (R173). -/
inductive ResetLine where
  /-- the RESET input, asserted low -/
  | resetInput
  /-- the shelf bus reset line -/
  | shelfBus
  deriving DecidableEq, Repr

/-- An edge on REF or on a capture line (R3, R44). -/
inductive Edge where
  | rising
  | falling
  deriving DecidableEq, Repr

/-- The strap inputs, latched when a full reset ends (R156): the base select and the edges that REF and the four
capture lines select. -/
structure Straps where
  base : BitVec 4
  refEdge : Edge
  captureEdge : Edge
  deriving DecidableEq, Repr

/-- The two ways in which CONTEXT RESET is issued (R170). -/
inductive ContextResetWay where
  /-- a write of its code to the request code word -/
  | codeWord
  /-- a write of any value to the context reset word -/
  | resetWord (value : Word)
  deriving DecidableEq, Repr

/-- The commands. A shelf bus command carries the slot of its address phase; unless it says otherwise it is a
transaction inside the window with good parity. A request carries no arguments of its own: they stand in the slot's
argument words (R157, R158). -/
inductive Instr where
  /-- OSCILLATOR_CYCLE (R1): one cycle of the 8.192 MHz oscillator. -/
  | oscillatorCycle
  /-- SLEW_REMAINDER_END (R13): the slew remainder is used up. -/
  | slewRemainderEnd
  /-- REF_PULSE (R3): an edge on REF. -/
  | refPulse (edge : Edge)
  /-- ARMED_EXPIRY (R6). -/
  | armedExpiry
  /-- MISSING_PULSE_EVENT (R10). -/
  | missingPulseEvent
  /-- BOUNDARY_EVENT (R18, R32, R112). -/
  | boundaryEvent
  /-- EXPIRY_EVENT (R19, R113). -/
  | expiryEvent
  /-- SCAN_EVENT (R20, R36). -/
  | scanEvent
  /-- CAPTURE_PULSE (R44): an edge on a slot's capture line. -/
  | capturePulse (m : Slot) (edge : Edge)
  /-- FULL_RESET (R173): one of the two reset lines is asserted. -/
  | fullReset (line : ResetLine)
  /-- FULL_RESET_END (R174): one of the two reset lines is negated, with the strap inputs as they stand. -/
  | fullResetEnd (line : ResetLine) (straps : Straps)
  /-- ADDRESS_PARITY_ERROR (R151): an address phase with its fields and its parity bit as received, which fails its
  parity check. -/
  | addressParityError (address : AddressLines) (m : Slot) (direction : Direction)
  /-- REGISTER_WRITE (R149, R152): a write of one word with the four lane parity bits as received. -/
  | registerWrite (address : WordAddress) (m : Slot) (value : Word) (lanes : BitVec 4)
  /-- BUS_ERROR_CLEAR (R155): a write to the bus error clear word. -/
  | busErrorClear (m : Slot) (value : Word)
  /-- COMMIT (R79): a write to staging word 7. -/
  | commit (m : Slot) (value : Word)
  /-- RECORD_TAKING (R83): the Intake Unit takes one record. -/
  | recordTaking
  /-- NOTICE_POP (R126): a read of the pop word. -/
  | noticePop (m : Slot)
  /-- OVERFLOW_CLEAR (R127): a write to the pop word. -/
  | overflowClear (m : Slot) (value : Word)
  /-- CURSOR_READ (R132): a read of the cursor data port. -/
  | cursorRead (m : Slot)
  /-- CURSOR_POSITION_WRITE (R133): a write to the cursor data port. -/
  | cursorPositionWrite (m : Slot) (value : Word)
  /-- FLAGS_WORD_WRITE (R143): a write to the flags word. -/
  | flagsWordWrite (m : Slot) (value : Word)
  /-- ENABLE_MASK_WRITE (R141): a write to the enable mask word. -/
  | enableMaskWrite (m : Slot) (value : Word)
  /-- POLL_READ (R144): a read of the POLL word. -/
  | pollRead (m : Slot)
  /-- SET_TIME (R4), code 1. -/
  | setTime (m : Slot)
  /-- REACQUIRE (R12), code 2. -/
  | reacquire (m : Slot)
  /-- READ_TIME (R16), code 3. -/
  | readTime (m : Slot)
  /-- SET_RANGE (R25), code 4. -/
  | setRange (m : Slot)
  /-- ENABLE_STATION (R27), code 5. -/
  | enableStation (m : Slot)
  /-- DISABLE_STATION (R28), code 6. -/
  | disableStation (m : Slot)
  /-- CONFIGURE_STATION (R30), code 7. -/
  | configureStation (m : Slot)
  /-- CLEAR_COUNTERS (R41), code 8. -/
  | clearCounters (m : Slot)
  /-- INTAKE_RESET (R86), code 9. -/
  | intakeReset (m : Slot)
  /-- SET_THRESHOLD (R82), code 10. -/
  | setThreshold (m : Slot)
  /-- ENROL (R123), code 11. -/
  | enrol (m : Slot)
  /-- WITHDRAW (R124), code 12. -/
  | withdraw (m : Slot)
  /-- OPEN_CURSOR (R128), code 13. -/
  | openCursor (m : Slot)
  /-- RELEASE (R134), code 14. -/
  | release (m : Slot)
  /-- START (R165), code 15. -/
  | start (m : Slot)
  /-- HALT (R167), code 16. -/
  | halt (m : Slot)
  /-- SET_PARAMETER (R168), code 17. -/
  | setParameter (m : Slot)
  /-- CONTEXT_RESET (R170, R171), code 18 or the context reset word. -/
  | contextReset (m : Slot) (way : ContextResetWay)
  /-- UNKNOWN_REQUEST_CODE (R158, R177): a write to the code word of a value that names no request. -/
  | unknownRequestCode (m : Slot) (value : Word)
  /-- REQUEST_SLOT_RETRY (R160): a write to the code word while the slot is IN FLIGHT. -/
  | requestSlotRetry (m : Slot) (value : Word)
  deriving DecidableEq, Repr

end Sys2Proof
end

