-- ==== Sys2Proof/Config.lean ====
section
/-! DEFINITION. What the spec leaves without a value. Each constant is opaque: nothing can be proved of its value.
All three are shown by plain reads only; no command computes with them. -/

namespace Sys2Proof.Config

/-- FREE VALUE (log 11). The length that the reader status shows for a cursor that is GONE, by its window number and
its position. R136 gives the length of a cursor on a target it can read and of no target; for GONE it says nothing. -/
opaque goneCursorLength : Nat → Nat → Word

/-- FREE VALUE (log 12). Bits 10 to 9 of timebase word 0 while no SET TIME is in flight (R17, Table 11-12). -/
opaque idleSetTimeSlot : Slot

/-- FREE VALUE (log 13). The two last missed window words while no last missed window is held (R136, Table 11-12),
by slot and by word (0 for lo, 1 for hi). -/
opaque absentMissedWindow : Slot → Nat → Word

end Sys2Proof.Config
end

