-- ==== Sys2Proof/Machine/Arith.lean ====
section
/-! DEFINITION. The arithmetic words of 00 section 0.6.4 and the fixed figures the operations use. -/

namespace Sys2Proof.Machine

/-- trunc(a / b): toward zero. -/
def truncDiv (a b : Int) : Int := a.tdiv b

/-- floor(a / b). -/
def floorDiv (a b : Int) : Int := a.fdiv b

/-- ceil(a / b) of natural numbers, for b above 0. -/
def ceilDiv (a b : Nat) : Nat := (a + b - 1) / b

/-- round(a / b) for b above 0: the nearest integer, a value exactly halfway away from zero. -/
def roundDiv (a : Int) (b : Nat) : Int := a.sign * ((2 * a.natAbs + b) / (2 * b) : Nat)

/-- clamp(x) within ±n. -/
def clamp (n x : Int) : Int := max (-n) (min n x)

/-- One more, in a counter of 16 bits that saturates at 65,535. -/
def raise16 (n : Nat) : Nat := min 65535 (n + 1)

/-- `k` more, in a counter of 16 bits that saturates at 65,535 (R41). -/
def raise16By (k n : Nat) : Nat := min 65535 (n + k)

/-- The greatest network µs, 2^56 - 1 (R1). -/
def maxUs : Nat := 2 ^ 56 - 1

/-- Units of fine time in one µs (R1). -/
def usUnits : Nat := 2 ^ 32

/-- The nominal step of fine time on each oscillator cycle (R1). -/
def nominalStep : Nat := 524288000

/-- The trim limit (R2). -/
def trimLimit : Int := 262144

/-- One million: µs in a second. -/
def million : Nat := 1000000

/-- 10^9, the divisor of drifts in ppb. -/
def billion : Nat := 1000000000

/-- The greatest hub term and the greatest uncertainty (R15, R74). -/
def maxUncertainty : Nat := 16777215

/-- The greatest second N of SET TIME (R4). -/
def maxSecond : Nat := 68719476735

/-- The records of the fragment pool (R102). -/
def poolSize : Nat := 4096

/-- A value restored from its low 40 bits against a reference (R64): the candidate `raw + j·2^40` nearest `r`, the
larger of two that are equally near. -/
def extendStamp (raw : Nat) (r : Int) : Int :=
  let d := ((raw : Int) - r) % 2 ^ 40
  if d ≤ 2 ^ 39 then r + d else r + d - 2 ^ 40

/-- A value within the range of network time, 0 to 2^56 - 1. -/
def inTimeRange (x : Int) : Bool := decide (0 ≤ x) && decide (x ≤ (maxUs : Int))

end Sys2Proof.Machine
end

