-- ==== Sys2Proof/Machine/Bits.lean ====
section
/-! DEFINITION. Bits of bus words: fields, two-word values, address and lane parity, and which values of a code word write name a
request. -/

namespace Sys2Proof.Machine

/-- Bits `lo + width - 1` to `lo` of a word, as a number (R175). -/
def field (w : Word) (lo width : Nat) : Nat := (w.toNat >>> lo) % 2 ^ width

/-- A value that occupies two words: `lo` holds bits 31 to 0 and `hi` the higher bits (R175). -/
def wide (lo hi : Word) : Nat := lo.toNat + 2 ^ 32 * hi.toNat

/-- The lower word of a value of two words (R175). -/
def loWord (n : Nat) : Word := BitVec.ofNat 32 n

/-- The higher word of a value of two words (R175). -/
def hiWord (n : Nat) : Word := BitVec.ofNat 32 (n >>> 32)

/-- The lower word of a signed value of two words, two's complement (R175). -/
def loWordInt (z : Int) : Word := BitVec.ofInt 32 z

/-- The higher word of a signed value of two words, sign-extended (R175). -/
def hiWordInt (z : Int) : Word := BitVec.ofInt 32 (z / 2 ^ 32)

/-- A number placed with its least significant bit at bit `lo` of a word. -/
def atBit (n lo : Nat) : Word := BitVec.ofNat 32 (n <<< lo)

/-- A flag placed at bit `k` of a word. -/
def flagBit (b : Bool) (k : Nat) : Word := atBit b.toNat k

/-- The eight data bits of lane `k` and its parity bit hold an odd number of ones (R152, 09 section 9.3). -/
def laneParityOk (value : Word) (lanes : BitVec 4) (k : Nat) : Bool :=
  (List.range 8).foldl (fun acc i => acc ^^ value.getLsbD (8 * k + i)) (lanes.getLsbD k)

/-- All four byte lanes pass (R152). -/
def lanesOk (value : Word) (lanes : BitVec 4) : Bool :=
  (List.range 4).all (laneParityOk value lanes)

/-- The parity bit that makes lane `k` of a word odd (R153). -/
def oddParityBit (value : Word) (k : Nat) : Bool := laneParityOk value 0 k == false

/-- The four parity bits that the 7320 drives with a word it returns: odd parity in each byte lane (R153). -/
def oddLanes (value : Word) : BitVec 4 :=
  BitVec.ofNat 4 ((oddParityBit value 0).toNat + 2 * (oddParityBit value 1).toNat
    + 4 * (oddParityBit value 2).toNat + 8 * (oddParityBit value 3).toNat)

/-- The word address, the slot number, the direction and the address parity bit together hold an odd number of ones
(R151, 09 section 9.3). WRITE counts as a one, as the bus error record shows it (Table 11-12; log 22). -/
def addressParityOk (address : WordAddress) (m : Slot) (d : Direction) (parity : Bool) : Bool :=
  (List.range 18).foldl (fun acc i => acc ^^ address.getLsbD i)
    (m.val.testBit 0 ^^ m.val.testBit 1 ^^ (d == .write) ^^ parity)

/-- A value written to the code word names a request of Table 11-3: codes 1 to 18, with no bit above bit 7 (R177). -/
def namesRequest (value : Word) : Bool :=
  decide (1 ≤ value.toNat) && decide (value.toNat ≤ 18)

/-- Window offsets of the words whose writes have a row of their own (Table 11-12): bus error clear, staging word 7,
the request code word, the context reset word, the pop word, the cursor data port, the flags word and the enable mask
word. -/
def ownRowOffsets : List Nat := [6, 8199, 8208, 8220, 8240, 8243, 8256, 8257]

end Sys2Proof.Machine
end

