-- ==== Sys2Proof/Machine/State.lean ====
section
/-! DEFINITION. The state of the 7320 as plain data: every register, queue, counter, mode and record the spec names
(INVENTORY.md lists each with its rule), and its value after a full reset. -/

namespace Sys2Proof.Machine

/-! ### The Timebase (Chapter 1) -/

/-- The discipline state of the Timebase (Table 1-1). -/
inductive Discipline where
  | free
  | armed
  | locked
  | holdover
  | slewing
  deriving DecidableEq, Repr

/-- A SET TIME in flight: its slot, the second N asked for, and the network µs at which it was taken (R4). -/
structure SetTimeInFlight where
  slot : Slot
  second : Nat
  armTime : Nat
  deriving DecidableEq, Repr

/-- The Timebase Unit (01 section 1.3). `freqPart` and `phasePart` are F and P in units of 2^-32 µs per cycle,
`lastError` is e_last in units of 2^-32 µs. The three `…Due` fields hold the events raised at the present network µs and
not yet taken (R18, R19, R20; log 4). -/
structure Timebase where
  us : Nat
  frac : Nat
  freqPart : Int
  phasePart : Int
  discipline : Discipline
  lastError : Int
  badRun : Nat
  goodRun : Nat
  deadline : Option Nat
  holdoverStart : Nat
  slewRemainder : Nat
  pulsesTaken : Nat
  outOfWindow : Nat
  missingPulses : Nat
  inFlight : Option SetTimeInFlight
  boundaryDue : Option Nat
  expiryDue : Option Nat
  scanDue : Bool
  deriving DecidableEq, Repr

/-- The Timebase after full reset (Table 1-5). -/
def Timebase.reset : Timebase where
  us := 0
  frac := 0
  freqPart := 0
  phasePart := 0
  discipline := .free
  lastError := 0
  badRun := 0
  goodRun := 0
  deadline := none
  holdoverStart := 0
  slewRemainder := 0
  pulsesTaken := 0
  outOfWindow := 0
  missingPulses := 0
  inFlight := none
  boundaryDue := none
  expiryDue := none
  scanDue := false

/-! ### Parameters (Table 10-3) -/

/-- The seventeen parameters, in the order of their codes (Table 11-4). -/
structure Params where
  lockWindow : Nat
  gp : Nat
  gi : Nat
  hubGrowth : Nat
  scanBit : Nat
  silenceTimeout : Nat
  maxDelay : Nat
  minDriftSpan : Nat
  smoothing : Nat
  probeGrowth : Nat
  stepLimit : Nat
  satBase : Nat
  satGrowth : Nat
  staleLimit : Nat
  windowLength : Nat
  holdOpen : Nat
  tolerance : Nat
  deriving DecidableEq, Repr

/-- The defaults of Table 10-3, which full reset sets (R174). -/
def Params.reset : Params where
  lockWindow := 50
  gp := 2
  gi := 6
  hubGrowth := 100
  scanBit := 20
  silenceTimeout := 60
  maxDelay := 100000
  minDriftSpan := 300
  smoothing := 2
  probeGrowth := 1000
  stepLimit := 1000
  satBase := 1
  satGrowth := 500
  staleLimit := 3600
  windowLength := 10
  holdOpen := 30
  tolerance := 1000

/-- The part state (R164). -/
inductive PartState where
  | setup
  | run
  deriving DecidableEq, Repr

/-! ### Station records (Chapter 2) -/

/-- The mode of a station (R22). -/
inductive Mode where
  | satellite
  | probed
  | arrival
  deriving DecidableEq, Repr

/-- The state of a station (Table 2-3). -/
inductive StationState where
  | disabled
  | acquiring
  | tracking
  | silent
  deriving DecidableEq, Repr

/-- The configuration of a station (R22): delays, latency and jitter bound in µs. -/
structure StationConfig where
  mode : Mode
  rateCode : Nat
  fixedDelay : Int
  linkLatency : Nat
  jitterBound : Nat
  deriving DecidableEq, Repr

/-- The configuration after full reset (R22). -/
def StationConfig.reset : StationConfig := ⟨.satellite, 5, 0, 0, 0⟩

/-- The sequence state (R38): the last sequence and the seen-set, each number at most once. -/
structure SequenceState where
  last : Nat
  seen : List Nat
  deriving DecidableEq, Repr

/-- The active model (03 section 3.4.1): offset in half-µs, drift in ppb, reference local time, selected round-trip
delay, revision, estimated flag. -/
structure ActiveModel where
  offset : Int
  drift : Int
  reference : Nat
  delay : Nat
  revision : Nat
  estimated : Bool
  deriving DecidableEq, Repr

/-- The staged model (R59): the active model's fields apart from the revision and the flag. -/
structure StagedModel where
  offset : Int
  drift : Int
  reference : Nat
  delay : Nat
  deriving DecidableEq, Repr

/-- The anchor (R55): local t2 and offset of a probe. -/
structure Anchor where
  t2 : Nat
  offset : Int
  deriving DecidableEq, Repr

/-- An entry of the probe history (R53): extended t2, offset in half-µs, round-trip delay. -/
structure HistoryEntry where
  t2 : Nat
  offset : Int
  delay : Nat
  deriving DecidableEq, Repr

/-- The eight counters of a station (Table 2-4), 16 bits each, saturating. -/
structure StationCounters where
  blocksAccepted : Nat
  fragmentsLate : Nat
  duplicates : Nat
  sequenceGaps : Nat
  refusals : Nat
  probesAccepted : Nat
  probesRefused : Nat
  steps : Nat
  deriving DecidableEq, Repr

/-- All eight counters at 0 (R41). -/
def StationCounters.zero : StationCounters := ⟨0, 0, 0, 0, 0, 0, 0, 0⟩

/-- A station record (Table 2-1). Its number is its place in the Station Table. -/
structure Station where
  state : StationState
  config : StationConfig
  pendingConfig : Option StationConfig
  sequence : Option SequenceState
  horizon : Option Nat
  active : Option ActiveModel
  staged : Option StagedModel
  anchor : Option Anchor
  history : List HistoryEntry
  lastArrival : Nat
  lastLock : Bool
  lastSeconds : Nat
  counters : StationCounters
  deriving DecidableEq, Repr

/-- A station record after full reset (R43). -/
def Station.reset : Station where
  state := .disabled
  config := StationConfig.reset
  pendingConfig := none
  sequence := none
  horizon := none
  active := none
  staged := none
  anchor := none
  history := []
  lastArrival := 0
  lastLock := false
  lastSeconds := 0
  counters := StationCounters.zero

/-! ### Windows and fragments (Chapter 6) -/

/-- A fragment record (R103). -/
structure Fragment where
  station : StationNo
  source : Slot
  handle : Word
  sequence : Nat
  firstIndex : Nat
  count : Nat
  firstTime : Nat
  lastTime : Nat
  uncertainty : Nat
  deviation : Int
  revision : Nat
  loose : Bool
  overlap : Bool
  acquiring : Bool
  hubHoldover : Bool
  satUnlocked : Bool
  satStale : Bool
  arrival : Bool
  deriving DecidableEq, Repr

/-- Why a window was closed (R114). -/
inductive CloseReason where
  | expiry
  | complete
  | flush
  deriving DecidableEq, Repr

/-- The window a window slot holds (R101): OPEN while `closed` is none, CLOSED with its reason otherwise. The sets are
lists in ascending order without repeats. -/
structure Window where
  number : Nat
  closed : Option CloseReason
  expected : List StationNo
  covered : List StationNo
  fragments : List Fragment
  pending : List Slot
  endMark : Bool
  deriving DecidableEq, Repr

/-! ### Intake (Chapter 5) -/

/-- A record of an intake queue: the eight words as committed (R80). -/
abbrev IntakeRecord := Vector Word 8

/-- The outcomes that refuse a record (Table 11-6). -/
inductive RefusalCode where
  | malformed
  | state
  | notOwner
  | disabled
  | rate
  | count
  | staleCapture
  | noModel
  | outOfRange
  | span
  | future
  | duplicate
  | staleSeq
  | poolFull
  | mode
  | badProbe
  | probeDelay
  deriving DecidableEq, Repr

/-- The kind of a well-formed record (R176). -/
inductive RecordKind where
  | block
  | probe
  deriving DecidableEq, Repr

/-- The last-refusal record of a slot (R96). `tag` is the block handle or the probe tag. -/
inductive LastRefusal where
  | malformed (word0 word1 word2 : Word)
  | refused (code : RefusalCode) (kind : RecordKind) (station : Nat) (tag : Word)
  deriving DecidableEq, Repr

/-- A slot's share of the Intake Unit (05 section 5.1). -/
structure Intake where
  staging : Vector Word 8
  queue : List IntakeRecord
  hold : Bool
  threshold : Nat
  stopped : Bool
  accepted : Nat
  partLate : Nat
  late : Nat
  refused : Nat
  probesAccepted : Nat
  lastRefusal : Option LastRefusal
  deriving DecidableEq, Repr

/-- A slot's intake after full reset or context reset (Table 5-3). -/
def Intake.reset : Intake where
  staging := Vector.replicate 8 0
  queue := []
  hold := false
  threshold := 12
  stopped := false
  accepted := 0
  partLate := 0
  late := 0
  refused := 0
  probesAccepted := 0
  lastRefusal := none

/-! ### Captures (03 section 3.2) -/

/-- An entry of a capture ring (R44). -/
structure CaptureEntry where
  seq : Nat
  us : Nat
  deriving DecidableEq, Repr

/-- A slot's capture ring, oldest entry first, and its capture sequence counter (R44, R45). -/
structure Capture where
  ring : List CaptureEntry
  nextSeq : Nat
  deriving DecidableEq, Repr

/-- An empty ring and counter 0 (R47). -/
def Capture.reset : Capture := ⟨[], 0⟩

/-! ### Readers (Chapter 7) -/

/-- A closed-window notice (R114). -/
structure Notice where
  window : Nat
  reason : CloseReason
  fragments : Nat
  expected : Nat
  covered : Nat
  deriving DecidableEq, Repr

/-- The target of a cursor (07 section 7.4). -/
inductive CursorTarget where
  | none
  | window (n : Nat)
  | station (n : StationNo)
  deriving DecidableEq, Repr

/-- The condition of a cursor (07 section 7.4). -/
inductive CursorCondition where
  | none
  | reading
  | atEnd
  | gone
  deriving DecidableEq, Repr

/-- A cursor with its snapshot buffer of 16 words (R128, R130). -/
structure Cursor where
  target : CursorTarget
  position : Nat
  condition : CursorCondition
  snapshot : Vector Word 16
  deriving DecidableEq, Repr

/-- A cursor with no target (R129, R138). -/
def Cursor.none : Cursor := ⟨.none, 0, .none, Vector.replicate 16 0⟩

/-- A slot's share of the Reader Unit (07 section 7.1). A cleared latch is `none`. -/
structure Reader where
  enrolled : Bool
  notices : List Notice
  overflow : Bool
  latch : Option Notice
  cursor : Cursor
  missed : Nat
  lastMissed : Option Nat
  deriving DecidableEq, Repr

/-- A slot's reader state after full reset or context reset (R138). -/
def Reader.reset : Reader where
  enrolled := false
  notices := []
  overflow := false
  latch := none
  cursor := Cursor.none
  missed := 0
  lastMissed := none

/-! ### Notices (Chapter 8) -/

/-- The six attention causes (Table 8-1). -/
inductive Cause where
  | intakeStopped
  | reclaimed
  | timebase
  | closed
  | intakeOpen
  | requestDone
  deriving DecidableEq, Repr

/-- A slot's pending flags and enable mask, one bit per cause in the positions of 11 section 11.7 (R139, R141). -/
structure Attention where
  pending : BitVec 6
  enables : BitVec 6
  deriving DecidableEq, Repr

/-- Every flag and enable clear (R147, R148). -/
def Attention.reset : Attention := ⟨0, 0⟩

/-! ### Request slots (Chapter 9) -/

/-- The result statuses (Table 9-5, codes in Table 11-4). -/
inductive Status where
  | none
  | ok
  | pending
  | timeout
  | state
  | busy
  | badArg
  | notOwner
  | overlap
  | badConfig
  | noWindow
  | notClosed
  | notPending
  deriving DecidableEq, Repr

/-- The three value words of a result (R159). -/
structure Values where
  v1 : Word
  v2 : Word
  v3 : Word
  deriving DecidableEq, Repr

/-- Value words a request does not use are 0 (R159). -/
def Values.zero : Values := ⟨0, 0, 0⟩

/-- The four result words by their fields (Table 11-5). -/
structure Result where
  code : BitVec 8
  number : BitVec 8
  status : Status
  values : Values
  deriving DecidableEq, Repr

/-- Result words 0: status none (R162, R177). -/
def Result.zero : Result := ⟨0, 0, .none, Values.zero⟩

/-- A request slot (09 section 9.7). -/
structure RequestSlot where
  inFlight : Bool
  args : Vector Word 7
  lastCode : BitVec 8
  number : BitVec 8
  result : Result
  deriving DecidableEq, Repr

/-- A request slot after full reset (R163). -/
def RequestSlot.reset : RequestSlot := ⟨false, Vector.replicate 7 0, 0, 0, Result.zero⟩

/-- A valid entry of the range table (R24): the stations `base` to `base + size - 1`. -/
structure Range where
  base : Nat
  size : Nat
  deriving DecidableEq, Repr

/-- All the state the 7320 keeps per slot (00 section 0.5, "context"). -/
structure Context where
  range : Option Range
  capture : Capture
  intake : Intake
  reader : Reader
  attention : Attention
  request : RequestSlot
  deriving DecidableEq, Repr

/-- A context after full reset. -/
def Context.reset : Context where
  range := none
  capture := Capture.reset
  intake := Intake.reset
  reader := Reader.reset
  attention := Attention.reset
  request := RequestSlot.reset

/-! ### The shelf bus (Chapter 9) -/

/-- The kind of a parity failure (R155). -/
inductive ParityKind where
  | address
  | data
  deriving DecidableEq, Repr

/-- A bus error record that is HOLDING: the first failure and the count (R155). -/
structure BusError where
  kind : ParityKind
  address : WordAddress
  slot : Slot
  direction : Direction
  count : Nat
  deriving DecidableEq, Repr

/-- The responses of the 7320 (Table 9-1). -/
inductive Response where
  | ok
  | retry
  | dataErr
  | noAck
  deriving DecidableEq, Repr

/-- What the 7320 drove in the last transaction: its response and, for a read, the word (log 7). -/
structure BusAnswer where
  response : Response
  data : Option Word
  deriving DecidableEq, Repr

/-! ### The whole part -/

/-- The state of the part, with the queue of commands that wait. -/
structure State where
  timebase : Timebase
  params : Params
  part : PartState
  stations : Vector Station 128
  contexts : Vector Context 4
  windows : Vector (Option Window) 64
  rrPointer : Slot
  busError : Option BusError
  straps : Straps
  resetPin : Bool
  busReset : Bool
  bus : BusAnswer
  pending : List Instr
  deriving DecidableEq, Repr

/-- Every block at its full-reset values, with given latched straps and reset lines and a given queue
(R99, R122, R138, R148, R163, R173). -/
def State.fullResetValues (straps : Straps) (resetPin busReset : Bool) (pending : List Instr) : State where
  timebase := Timebase.reset
  params := Params.reset
  part := .setup
  stations := Vector.replicate 128 Station.reset
  contexts := Vector.replicate 4 Context.reset
  windows := Vector.replicate 64 none
  rrPointer := 0
  busError := none
  straps := straps
  resetPin := resetPin
  busReset := busReset
  bus := ⟨.noAck, none⟩
  pending := pending

/-- The part when a full reset has just ended (R174), with an empty queue. The latched straps are base 0 and rising
edges, a choice of the model: the spec latches the strap inputs (log 2). -/
def State.reset : State := State.fullResetValues ⟨0, .rising, .rising⟩ false false []

/-- The reasons for which the machine stops with a fault: none. The spec names no event that stops the part. -/
inductive Fault where
  deriving DecidableEq, Repr

/-- The reasons for which a command is refused. -/
inductive Refusal where
  /-- Raised by an arm of exec whose command has no meaning yet; safe. No arm of this model raises it. -/
  | notModelled (mnemonic : String)
  deriving DecidableEq, Repr

end Sys2Proof.Machine
end

