-- ==== Sys2Proof/Machine/Flags.lean ====
section
/-! DEFINITION. The flags of the Notice Unit: causes by bit and by priority, raising, clearing, and what a POLL read
chooses (Chapter 8, 11 section 11.7). -/

namespace Sys2Proof.Machine

/-- The bit of a cause in the flags word and the enable mask (11 section 11.7). -/
def Cause.index : Cause → Nat
  | .intakeStopped => 0
  | .reclaimed => 1
  | .timebase => 2
  | .closed => 3
  | .intakeOpen => 4
  | .requestDone => 5

/-- The code of a cause in the POLL word; 0 is NONE (11 section 11.7). -/
def Cause.code (c : Cause) : Nat := c.index + 1

/-- The six causes in priority order, highest first (Table 8-1). -/
def Cause.byPriority : List Cause := [.intakeStopped, .reclaimed, .timebase, .closed, .intakeOpen, .requestDone]

/-- A word with the flag of one cause alone. -/
def Cause.mask (c : Cause) : BitVec 6 := 1#6 <<< c.index

/-- A cause is pending. -/
def Attention.isPending (a : Attention) (c : Cause) : Bool := a.pending.getLsbD c.index

/-- A cause is enabled. -/
def Attention.isEnabled (a : Attention) (c : Cause) : Bool := a.enables.getLsbD c.index

/-- A raise sets the flag whatever the mask holds (R139). -/
def Attention.raise (a : Attention) (c : Cause) : Attention := { a with pending := a.pending ||| c.mask }

/-- A flag cleared. -/
def Attention.clear (a : Attention) (c : Cause) : Attention := { a with pending := a.pending &&& ~~~c.mask }

/-- A write of ones to the flags word clears each flag written as one, apart from CLOSED (R143). -/
def Attention.clearOnes (a : Attention) (ones : BitVec 6) : Attention :=
  { a with pending := a.pending &&& ~~~(ones &&& ~~~Cause.closed.mask) }

/-- The cause a POLL read reports: the highest that is both pending and enabled (R144). -/
def Attention.reported (a : Attention) : Option Cause :=
  Cause.byPriority.find? fun c => a.isPending c && a.isEnabled c

/-- The flags after a POLL read: the reported cause cleared unless it is CLOSED (R144). -/
def Attention.polled (a : Attention) : Attention :=
  match a.reported with
  | some .closed => a
  | some c => a.clear c
  | none => a

/-- The line ATTNm follows flags and mask: asserted while some cause has both set (R142). -/
def Attention.line (a : Attention) : Bool := a.pending &&& a.enables != 0

end Sys2Proof.Machine
end

