-- ==== Sys2Proof/Machine/Ops.lean ====
section
/-! DEFINITION. The named operations over the state: one home for reading and writing each part of it, the causes, the
completion of a request, and what a transaction answers. -/

namespace Sys2Proof.Machine

/-- A table with one function applied to each entry. -/
def vmap {α β : Type} {n : Nat} (f : α → β) (v : Vector α n) : Vector β n :=
  ⟨⟨v.toList.map f⟩, by simp⟩

/-! ### Contexts and stations -/

/-- The context of slot m. -/
def State.ctx (s : State) (m : Slot) : Context := s.contexts[m]

/-- The context of slot m replaced. -/
def State.setCtx (s : State) (m : Slot) (c : Context) : State := { s with contexts := s.contexts.set m c }

/-- The context of slot m changed by a function. -/
def State.modCtx (s : State) (m : Slot) (f : Context → Context) : State := s.setCtx m (f (s.ctx m))

/-- Every context changed by a function. -/
def State.modAllCtx (s : State) (f : Context → Context) : State := { s with contexts := vmap f s.contexts }

/-- The record of station n. -/
def State.station (s : State) (n : StationNo) : Station := s.stations[n]

/-- The record of station n replaced. -/
def State.setStation (s : State) (n : StationNo) (r : Station) : State := { s with stations := s.stations.set n r }

/-- The record of station n changed by a function. -/
def State.modStation (s : State) (n : StationNo) (f : Station → Station) : State := s.setStation n (f (s.station n))

/-- Every station record changed by a function. -/
def State.modAllStations (s : State) (f : Station → Station) : State := { s with stations := vmap f s.stations }

/-- The Timebase replaced. -/
def State.setTimebase (s : State) (t : Timebase) : State := { s with timebase := t }

/-- The intake of slot m changed by a function. -/
def State.modIntake (s : State) (m : Slot) (f : Intake → Intake) : State :=
  s.modCtx m fun c => { c with intake := f c.intake }

/-- The capture ring of slot m changed by a function. -/
def State.modCapture (s : State) (m : Slot) (f : Capture → Capture) : State :=
  s.modCtx m fun c => { c with capture := f c.capture }

/-- The reader state of slot m changed by a function. -/
def State.modReader (s : State) (m : Slot) (f : Reader → Reader) : State :=
  s.modCtx m fun c => { c with reader := f c.reader }

/-- The flags and mask of slot m changed by a function. -/
def State.modAttention (s : State) (m : Slot) (f : Attention → Attention) : State :=
  s.modCtx m fun c => { c with attention := f c.attention }

/-- The request slot of slot m changed by a function. -/
def State.modRequest (s : State) (m : Slot) (f : RequestSlot → RequestSlot) : State :=
  s.modCtx m fun c => { c with request := f c.request }

/-- The range entry of slot m replaced. -/
def State.setRangeEntry (s : State) (m : Slot) (r : Option Range) : State :=
  s.modCtx m fun c => { c with range := r }

/-! ### Causes -/

/-- A block raises a cause at slot m (R139). -/
def State.raise (s : State) (m : Slot) (c : Cause) : State := s.modAttention m fun a => a.raise c

/-- A cause raised at all four slots, as a change of discipline state raises TIMEBASE (R14). -/
def State.raiseAll (s : State) (c : Cause) : State :=
  s.modAllCtx fun x => { x with attention := x.attention.raise c }

/-- ATTNm is asserted while some cause of slot m is both pending and enabled (R142). -/
def State.attn (s : State) (m : Slot) : Bool := (s.ctx m).attention.line

/-! ### Requests -/

/-- The completion of a request of slot m under a code (R159): its result words are written with the code and the
request number, the status and the values, the slot becomes IDLE, and REQUEST DONE is raised. -/
def State.postResult (s : State) (m : Slot) (code : BitVec 8) (status : Status) (values : Values) : State :=
  (s.modRequest m fun r => { r with inFlight := false, result := ⟨code, r.number, status, values⟩ }).raise m
    .requestDone

/-- The request last taken from slot m completes (R159). -/
def State.complete (s : State) (m : Slot) (status : Status) (values : Values) : State :=
  s.postResult m (s.ctx m).request.lastCode status values

/-- A completion with value words 0. -/
def State.completeBare (s : State) (m : Slot) (status : Status) : State := s.complete m status Values.zero

/-! ### Transactions and reset lines -/

/-- The part is held in full reset while either reset line is asserted (R173). -/
def State.inReset (s : State) : Bool := s.resetPin || s.busReset

/-- The response and read data of a transaction (log 7). -/
def State.answer (s : State) (r : Response) (data : Option Word) : State := { s with bus := ⟨r, data⟩ }

/-- A transaction inside the window: taken unless the part is held in full reset, in which no transaction is
acknowledged (R163). -/
def State.onBus (s : State) (f : State → State) : State :=
  if s.inReset then s.answer .noAck none else f s

/-- An event other than a transaction: not taken while the part is held in full reset (R173). -/
def State.onEvent (s : State) (f : State → State) : State :=
  if s.inReset then s else f s

/-- The four lane parity bits that the 7320 drives with the word of a read, odd parity in each byte lane (R153); with no
word it drives none. They follow the word and are not stored (log 15). -/
def BusAnswer.lanes (b : BusAnswer) : Option (BitVec 4) := b.data.map oddLanes

/-- A read that has an effect: its effect, and the word with response OK and the parity of `BusAnswer.lanes` (R153). -/
def State.answerRead (p : State × Word) : State := p.1.answer .ok (some p.2)

/-! ### Small readings of the state -/

/-- Network time is valid: LOCKED, HOLDOVER or SLEWING (Table 1-1). -/
def Discipline.valid : Discipline → Bool
  | .free | .armed => false
  | .locked | .holdover | .slewing => true

/-- A station in service is TRACKING or ACQUIRING (02 section 2.2). -/
def StationState.inService : StationState → Bool
  | .tracking | .acquiring => true
  | .disabled | .silent => false

/-- The stations of a range entry (R24). -/
def Range.covers (r : Range) (n : Nat) : Bool := decide (r.base ≤ n) && decide (n < r.base + r.size)

/-- Slot m's valid range entry covers station n (R24). -/
def State.owns (s : State) (m : Slot) (n : StationNo) : Bool :=
  match (s.ctx m).range with
  | some r => r.covers n
  | none => false

/-- L · 10^6: the length of a window in µs (R100). -/
def Params.windowUs (p : Params) : Nat := million * p.windowLength

/-- H · 10^6 in µs (R100). -/
def Params.holdUs (p : Params) : Nat := million * p.holdOpen

/-- The window that holds a network µs (R100). -/
def Params.windowOf (p : Params) (t : Nat) : Nat := t / p.windowUs

/-- The start of window w (R100). -/
def Params.windowStart (p : Params) (w : Nat) : Nat := w * p.windowUs

/-- The expiry time of window w (R100). -/
def Params.expiryTime (p : Params) (w : Nat) : Nat := (w + 1) * p.windowUs + p.holdUs

/-- The samples per second of a rate code (Table 2-2). -/
def samplesPerSecond : Nat → Nat
  | 0 => 1
  | 1 => 10
  | 2 => 20
  | 3 => 40
  | 4 => 50
  | 5 => 100
  | 6 => 200
  | 7 => 250
  | 8 => 500
  | _ => 1000

/-- The nominal period of a rate code in µs (Table 2-2). -/
def nominalPeriod : Nat → Nat
  | 0 => 1000000
  | 1 => 100000
  | 2 => 50000
  | 3 => 25000
  | 4 => 20000
  | 5 => 10000
  | 6 => 5000
  | 7 => 4000
  | 8 => 2000
  | _ => 1000

/-- The hub term (R15), from the Timebase and the hub holdover growth in force. -/
def hubTerm (t : Timebase) (growth : Nat) : Nat :=
  let e := ceilDiv t.lastError.natAbs usUnits
  match t.discipline with
  | .free | .armed => maxUncertainty
  | .locked | .slewing => min maxUncertainty e
  | .holdover => min maxUncertainty (e + ceilDiv ((t.us - t.holdoverStart) / million * growth) 1000)

end Sys2Proof.Machine
end

