-- ==== Sys2Proof/Machine/Operands.lean ====
section
/-! DEFINITION. What a command reads its operands from: the argument words of a request slot (Table 11-3) and the words
of an intake record (Tables 11-1 and 11-2). -/

namespace Sys2Proof.Machine

/-- Argument word k + 1 of slot m (R157): `State.arg s m 0` is argument word 1. -/
def State.arg (s : State) (m : Slot) (k : Fin 7) : Word := (s.ctx m).request.args[k]

/-- An argument read as an unsigned 32-bit value (R177). -/
def State.argNat (s : State) (m : Slot) (k : Fin 7) : Nat := (s.arg m k).toNat

/-- An argument read as a signed 32-bit value (R177). -/
def State.argInt (s : State) (m : Slot) (k : Fin 7) : Int := (s.arg m k).toInt

/-- A wide argument of two consecutive argument words, lo first (R177). -/
def State.argWide (s : State) (m : Slot) (lo hi : Fin 7) : Nat := wide (s.arg m lo) (s.arg m hi)

/-! ### Intake records -/

/-- Word k of a record. -/
def IntakeRecord.word (r : IntakeRecord) (k : Fin 8) : Word := r[k]

/-- The sum of the fourteen half-words of words 0 to 6 (R84). -/
def IntakeRecord.halfWordSum (r : IntakeRecord) : Nat :=
  ((List.finRange 7).map fun k => field (r.word k.castSucc) 16 16 + field (r.word k.castSucc) 0 16).sum

/-- The kind of a record, from bits 31 to 28 of word 0 (R176). -/
def IntakeRecord.kind (r : IntakeRecord) : Option RecordKind :=
  match field (r.word 0) 28 4 with
  | 1 => some .block
  | 2 => some .probe
  | _ => none

/-- The checks of R84 on word 7: its high half is 0, and the header check makes the sum of half-words 0. -/
def IntakeRecord.checkOk (r : IntakeRecord) : Bool :=
  field (r.word 7) 16 16 == 0 && (r.halfWordSum + field (r.word 7) 0 16) % 65536 == 0

/-- A record is well formed, and then of which kind (R84). -/
def IntakeRecord.wellFormedKind (r : IntakeRecord) : Option RecordKind :=
  if r.checkOk then r.kind else none

/-- The station number as given, 0 to 255 (R176). -/
def IntakeRecord.station (r : IntakeRecord) : Nat := field (r.word 0) 16 8

/-- The rate code of a BLOCK record. -/
def IntakeRecord.rateCode (r : IntakeRecord) : Nat := field (r.word 0) 24 4

/-- The sequence number of a BLOCK record. -/
def IntakeRecord.sequence (r : IntakeRecord) : Nat := field (r.word 0) 0 16

/-- The sample count of a BLOCK record. -/
def IntakeRecord.count (r : IntakeRecord) : Nat := field (r.word 1) 16 16

/-- The satellite lock flag of a BLOCK record. -/
def IntakeRecord.lockFlag (r : IntakeRecord) : Bool := (r.word 1).getLsbD 15

/-- The seconds since lock of a BLOCK record. -/
def IntakeRecord.seconds (r : IntakeRecord) : Nat := field (r.word 1) 0 15

/-- The capture sequence of a BLOCK record. -/
def IntakeRecord.captureSeq (r : IntakeRecord) : Nat := field (r.word 2) 24 8

/-- The local stamp of a BLOCK record, 40 bits. -/
def IntakeRecord.stamp (r : IntakeRecord) : Nat := 2 ^ 32 * field (r.word 2) 0 8 + (r.word 3).toNat

/-- The block handle, or the probe tag (word 4 of either kind). -/
def IntakeRecord.tag (r : IntakeRecord) : Word := r.word 4

/-- The send capture sequence of a PROBE record, naming t1. -/
def IntakeRecord.sendSeq (r : IntakeRecord) : Nat := field (r.word 0) 8 8

/-- The receive capture sequence of a PROBE record, naming t4. -/
def IntakeRecord.receiveSeq (r : IntakeRecord) : Nat := field (r.word 0) 0 8

/-- The raw station receive stamp t2 of a PROBE record, 40 bits. -/
def IntakeRecord.rawT2 (r : IntakeRecord) : Nat := 2 ^ 32 * field (r.word 1) 8 8 + (r.word 2).toNat

/-- The raw station send stamp t3 of a PROBE record, 40 bits. -/
def IntakeRecord.rawT3 (r : IntakeRecord) : Nat := 2 ^ 32 * field (r.word 1) 0 8 + (r.word 3).toNat

/-- A station number as given names a station when it is 0 to 127. -/
def stationOf (n : Nat) : Option StationNo := if h : n < 128 then some ⟨n, h⟩ else none

end Sys2Proof.Machine
end

