-- ==== Sys2Proof/Machine/Windows.lean ====
section
/-! DEFINITION. The Window Store (Chapter 6): the ring of window slots and the fragment pool, opening, placement,
coverage and completeness, closing, freeing and reclaim, and what a boundary or expiry event does to the windows. -/

namespace Sys2Proof.Machine

/-! ### What the ring holds -/

/-- A window is OPEN (R101). -/
def Window.isOpen (w : Window) : Bool := w.closed.isNone

/-- The windows held, in slot order (R101). -/
def State.held (s : State) : List Window := s.windows.toList.filterMap id

/-- The window of number n, if the Store holds it. -/
def State.findWindow (s : State) (n : Nat) : Option Window := s.held.find? fun w => w.number == n

/-- The Store holds window n OPEN. -/
def State.holdsOpen (s : State) (n : Nat) : Bool := (s.findWindow n).any Window.isOpen

/-- The numbers of the windows held that meet a condition, ascending. -/
def State.numbersWhere (s : State) (p : Window → Bool) : List Nat :=
  ((s.held.filter p).map Window.number).insertionSort (· ≤ ·)

/-- The numbers of the OPEN windows, ascending. -/
def State.openNumbers (s : State) : List Nat := s.numbersWhere Window.isOpen

/-- The numbers of the CLOSED windows, ascending. -/
def State.closedNumbers (s : State) : List Nat := s.numbersWhere fun w => !w.isOpen

/-- The fragments in use (R102). -/
def State.usedFragments (s : State) : Nat := (s.held.map fun w => w.fragments.length).sum

/-- The free count of the pool (R102). -/
def State.freeFragments (s : State) : Nat := poolSize - s.usedFragments

/-- The lowest-numbered FREE window slot (R104). -/
def State.freeSlot (s : State) : Option (Fin 64) := (List.finRange 64).find? fun i => s.windows[i].isNone

/-- The window of number n changed by a function. -/
def State.modWindow (s : State) (n : Nat) (f : Window → Window) : State :=
  { s with windows := vmap (Option.map fun w => if w.number = n then f w else w) s.windows }

/-! ### Notices, closing, completeness -/

/-- The Reader Unit takes a closed-window notice for slot m (R125): it joins a queue of fewer than 8, raising CLOSED if
the queue was empty, and is otherwise dropped with the overflow flag set. -/
def State.handNotice (s : State) (m : Slot) (nt : Notice) : State :=
  let old := (s.ctx m).reader.notices
  if old.length < 8 then
    let s1 := s.modReader m fun r => { r with notices := r.notices ++ [nt] }
    if old.isEmpty then s1.raise m .closed else s1
  else s.modReader m fun r => { r with overflow := true }

/-- The slots enrolled as readers, ascending (R114). -/
def State.enrolledSlots (s : State) : List Slot := (List.finRange 4).filter fun m => (s.ctx m).reader.enrolled

/-- The notice of a window closed for a reason (R114). -/
def Window.notice (w : Window) (reason : CloseReason) : Notice :=
  ⟨w.number, reason, w.fragments.length, w.expected.length, w.covered.length⟩

/-- Closing the OPEN window n (R114): CLOSED with its reason, the pending set fixed from the enrolled slots, a notice to
each of them. A window not held OPEN is left as it is. -/
def State.closeWindow (s : State) (n : Nat) (reason : CloseReason) : State :=
  match s.findWindow n with
  | some w =>
    if w.isOpen then
      s.enrolledSlots.foldl (fun t m => t.handNotice m (w.notice reason))
        (s.modWindow n fun w => { w with closed := some reason, pending := s.enrolledSlots })
    else s
  | none => s

/-- Every station of the expected set is covered (R106). -/
def Window.isComplete (w : Window) : Bool := w.expected.all fun n => w.covered.contains n

/-- The completeness check (R106): an OPEN window with its end mark set closes COMPLETE when it is complete. -/
def State.completenessCheck (s : State) (n : Nat) : State :=
  match s.findWindow n with
  | some w => if w.isOpen && w.endMark && w.isComplete then s.closeWindow n .complete else s
  | none => s

/-! ### Freeing and reclaim -/

/-- A cursor on window n that is READING or AT END becomes GONE (R132). -/
def Cursor.lose (c : Cursor) (n : Nat) : Cursor :=
  if c.target = .window n ∧ (c.condition = .reading ∨ c.condition = .atEnd) then { c with condition := .gone } else c

/-- Window n leaves the ring: its slot becomes FREE, its fragment records return to the pool, and cursors on it become
GONE (R116, R117, R132). -/
def State.dropWindow (s : State) (n : Nat) : State :=
  State.modAllCtx { s with windows := vmap (fun o => o.filter fun w => w.number != n) s.windows }
    fun c => { c with reader := { c.reader with cursor := c.reader.cursor.lose n } }

/-- What a reclaim of window n does at a slot of its pending set (R135). -/
def State.missWindow (s : State) (m : Slot) (n : Nat) : State :=
  (s.modReader m fun r => { r with missed := raise16 r.missed, lastMissed := some n }).raise m .reclaimed

/-- The reclaim of the CLOSED window n (R117). -/
def State.reclaim (s : State) (n : Nat) : State :=
  match s.findWindow n with
  | some w => (w.pending.foldl (fun t m => t.missWindow m n) s).dropWindow n
  | none => s

/-- The CLOSED window of lowest number reclaimed, until the pool has `need` free records or no CLOSED window is left;
`fuel` bounds the number of reclaims (R107). -/
def State.reclaimFor (s : State) (need : Nat) : (fuel : Nat) → State
  | 0 => s
  | fuel + 1 =>
    if need ≤ s.freeFragments then s else
      match s.closedNumbers with
      | [] => s
      | n :: _ => (s.reclaim n).reclaimFor need fuel

/-- Slot m removed from the pending set of window n, which is freed if that empties the set (R116); the Boolean says
whether it was freed. -/
def State.releaseWindow (s : State) (m : Slot) (n : Nat) : State × Bool :=
  let s1 := s.modWindow n fun w => { w with pending := w.pending.filter (· != m) }
  match s1.findWindow n with
  | some w => if w.pending.isEmpty then (s1.dropWindow n, true) else (s1, false)
  | none => (s1, false)

/-- The CLOSED windows whose pending set holds slot m, ascending. -/
def State.owedTo (s : State) (m : Slot) : List Nat := s.numbersWhere fun w => !w.isOpen && w.pending.contains m

/-- Slot m removed from the pending set of every CLOSED window, the emptied ones freed in ascending order (R116); with
the number of windows freed. -/
def State.releaseAll (s : State) (m : Slot) : State × Nat :=
  (s.owedTo m).foldl (fun p n => let q := p.1.releaseWindow m n; (q.1, p.2 + q.2.toNat)) (s, 0)

/-! ### Opening -/

/-- The stations that a window opened now expects, ascending: TRACKING or ACQUIRING (R104). -/
def State.expectedNow (s : State) : List StationNo :=
  (List.finRange 128).filter fun n => (s.station n).state.inService

/-- A window as it is opened (R104). -/
def State.newWindow (s : State) (w : Nat) : Window := ⟨w, none, s.expectedNow, [], [], [], false⟩

/-- The opening of a window in the lowest FREE slot, if there is one. -/
def State.openInFreeSlot (s : State) (w : Nat) : State :=
  match s.freeSlot with
  | some i => { s with windows := s.windows.set i (some (s.newWindow w)) }
  | none => s

/-- Opening window w (R104): in the lowest FREE slot, the CLOSED window of lowest number being reclaimed first when no
slot is FREE. With neither FREE nor CLOSED slot nothing is opened, which R112 shows cannot come about (log 14). -/
def State.openWindow (s : State) (w : Nat) : State :=
  match s.freeSlot, s.closedNumbers with
  | none, n :: _ => (s.reclaim n).openInFreeSlot w
  | _, _ => s.openInFreeSlot w

/-! ### Placement -/

/-- Two fragments of one station share at least one value of their spans (R109). -/
def Fragment.overlaps (f g : Fragment) : Bool :=
  decide (f.station = g.station) && decide (f.firstTime ≤ g.lastTime) && decide (g.firstTime ≤ f.lastTime)

/-- The order of a window's list (R108): station, then first sample time, then sequence number. -/
def Fragment.before (f g : Fragment) : Bool :=
  decide (f.station < g.station) ||
    (decide (f.station = g.station) &&
      (decide (f.firstTime < g.firstTime) ||
        (decide (f.firstTime = g.firstTime) && decide (f.sequence ≤ g.sequence))))

/-- The samples of a station that count toward its coverage: those of fragments with neither LOOSE nor OVERLAP
(R106). -/
def Window.goodSamples (w : Window) (n : StationNo) : Nat :=
  ((w.fragments.filter fun f => decide (f.station = n) && !f.loose && !f.overlap).map Fragment.count).sum

/-- A station added to an ascending list of stations. -/
def insertStation (n : StationNo) : List StationNo → List StationNo
  | [] => [n]
  | h :: t => if n < h then n :: h :: t else if n = h then h :: t else h :: insertStation n t

/-- A station's coverage computed anew (R106): `need` is L × s. -/
def Window.recover (w : Window) (n : StationNo) (need : Nat) : Window :=
  { w with covered :=
      if need ≤ w.goodSamples n then insertStation n w.covered else w.covered.filter (· != n) }

/-- A fragment entered in a window: LOOSE, the overlap test, its place in the list, and the station's coverage
(R107 steps 1 to 5). -/
def Window.enter (w : Window) (f : Fragment) (tolerance need : Nat) : Window :=
  let new := { f with loose := decide (tolerance < f.uncertainty), overlap := w.fragments.any f.overlaps }
  let old := w.fragments.map fun g => if f.overlaps g then { g with overlap := true } else g
  Window.recover { w with fragments := old.orderedInsert (fun a b => a.before b) new } f.station need

/-- The samples a station must have in a window to be covered: L × s with its rate code in force (R106). -/
def State.samplesNeeded (s : State) (n : StationNo) : Nat :=
  s.params.windowLength * samplesPerSecond (s.station n).config.rateCode

/-- A fragment dropped as late raises its station's fragments-late counter (R110). -/
def State.dropFragment (s : State) (f : Fragment) : State :=
  s.modStation f.station fun r =>
    { r with counters := { r.counters with fragmentsLate := raise16 r.counters.fragmentsLate } }

/-- One fragment of a list placed (R107): entered in its window if that is OPEN, with the completeness check, and
dropped otherwise. The two numbers count those entered and those dropped. -/
def State.placeOne (p : State × Nat × Nat) (wf : Nat × Fragment) : State × Nat × Nat :=
  let s := p.1
  if s.holdsOpen wf.1 then
    ((s.modWindow wf.1 fun w =>
        w.enter wf.2 s.params.tolerance (s.samplesNeeded wf.2.station)).completenessCheck wf.1,
      p.2.1 + 1, p.2.2)
  else (s.dropFragment wf.2, p.2.1, p.2.2 + 1)

/-- The placement of a fragment list (R107): reclaim for the fragments whose window is OPEN, then POOL_FULL (none) or
the numbers of fragments entered and dropped. -/
def State.placeFragments (s : State) (list : List (Nat × Fragment)) : State × Option (Nat × Nat) :=
  let need := (list.filter fun wf => s.holdsOpen wf.1).length
  let s1 := s.reclaimFor need 64
  if s1.freeFragments < need then (s1, none)
  else
    let r := list.foldl State.placeOne (s1, 0, 0)
    (r.1, some r.2)

/-! ### Events -/

/-- A station that leaves service is removed from the expected set of OPEN window n (R105). -/
def State.removeExpectedIn (s : State) (st : StationNo) (n : Nat) : State :=
  match s.findWindow n with
  | some w =>
    if w.expected.contains st then
      (s.modWindow n fun w => { w with expected := w.expected.filter (· != st) }).completenessCheck n
    else s
  | none => s

/-- A station that leaves service is removed from the expected set of every OPEN window, in ascending window number
(R105). -/
def State.removeExpected (s : State) (st : StationNo) : State :=
  s.openNumbers.foldl (fun t n => t.removeExpectedIn st n) s

/-- The end check of window n at a network µs (R111): the end mark, the completeness check, and the close by EXPIRY when
its expiry time has been reached. A window not OPEN is left as it is. -/
def State.endCheck (s : State) (now n : Nat) : State :=
  if s.holdsOpen n then
    let s1 := (s.modWindow n fun w => { w with endMark := true }).completenessCheck n
    if s1.holdsOpen n && decide (s1.params.expiryTime n ≤ now) then s1.closeWindow n .expiry else s1
  else s

/-- The Window Store's treatment of boundary b (R112): in RUN, the end check of every OPEN window below b, then window
b + 1 opened if no slot holds it. -/
def State.windowBoundary (s : State) (b : Nat) : State :=
  if s.part = .run then
    let s1 := (s.openNumbers.filter fun n => decide (n < b)).foldl (fun t n => t.endCheck s.timebase.us n) s
    if (s1.findWindow (b + 1)).isNone then s1.openWindow (b + 1) else s1
  else s

/-- Every OPEN window closed FLUSH in ascending window number (R115). -/
def State.flushAll (s : State) : State := s.openNumbers.foldl (fun t n => t.closeWindow n .flush) s

end Sys2Proof.Machine
end

