-- ==== Sys2Proof/Machine/Stations.lean ====
section
/-! DEFINITION. The Station Table (Chapter 2): configurations, staged models, states of service, sequence state, local
horizon, counters, and what boundaries, scans and the time set do to every station. -/

namespace Sys2Proof.Machine

/-! ### One record -/

/-- The state a station takes when it comes into service, by its mode and active model (R27, R34). -/
def Station.serviceState (r : Station) : StationState :=
  match r.config.mode with
  | .satellite | .arrival => .tracking
  | .probed =>
    match r.active with
    | some a => if a.estimated then .tracking else .acquiring
    | none => .acquiring

/-- Applying a configuration (R31): the five values written and the pending configuration removed; on a change of mode
the models, anchor, history and horizon are discarded, and a station in service takes the state of its new mode. -/
def Station.applyConfig (r : Station) (c : StationConfig) : Station :=
  if c.mode = r.config.mode then { r with config := c, pendingConfig := none }
  else
    { r with
      config := c
      pendingConfig := none
      active := none
      staged := none
      anchor := none
      history := []
      horizon := none
      state := if r.state.inService then (if c.mode = .probed then .acquiring else .tracking) else r.state }

/-- The pending configuration applied, if one is held. -/
def Station.applyPending (r : Station) : Station :=
  match r.pendingConfig with
  | some c => r.applyConfig c
  | none => r

/-- The revision after one change of the active model: from 255 it wraps to 0 (R60). -/
def nextRevision (n : Nat) : Nat := (n + 1) % 256

/-- The staged model made active, if one is held (R32, R33): fields replaced, revision raised by one, estimated flag
kept, staged model absent. -/
def Station.applyStaged (r : Station) : Station :=
  match r.staged, r.active with
  | some m, some a =>
    { r with active := some ⟨m.offset, m.drift, m.reference, m.delay, nextRevision a.revision, a.estimated⟩,
             staged := none }
  | _, _ => r

/-- A station at a boundary (R32): the pending configuration, then the staged model if one is still held. -/
def Station.atBoundary (r : Station) : Station := r.applyPending.applyStaged

/-- The local horizon raised to an accepted value (R39). -/
def Station.raiseHorizon (r : Station) (v : Nat) : Station :=
  { r with horizon := some (match r.horizon with | some h => max h v | none => v) }

/-- The distance of a sequence number behind the last sequence, modulo 65,536 (R38, R89). -/
def behind (last s : Nat) : Nat := ((last : Int) - s).emod 65536 |>.toNat

/-- The sequence state after marking s, and by how much the sequence-gaps counter rises (R38). -/
def markSequence (q : Option SequenceState) (s : Nat) : SequenceState × Nat :=
  match q with
  | none => (⟨s, []⟩, 0)
  | some q =>
    let d := behind q.last s
    if 32768 ≤ d then
      (⟨s, (q.last :: q.seen).filter fun x => decide (1 ≤ behind s x) && decide (behind s x ≤ 32)⟩, 65536 - d - 1)
    else if 1 ≤ d ∧ d ≤ 32 then (⟨q.last, if q.seen.contains s then q.seen else s :: q.seen⟩, 0)
    else (q, 0)

/-- Sequence number s marked for the station (R38). -/
def Station.mark (r : Station) (s : Nat) : Station :=
  let (q, gaps) := markSequence r.sequence s
  { r with
    sequence := some q
    counters := { r.counters with sequenceGaps := raise16By gaps r.counters.sequenceGaps } }

/-- The station is told of a block ACCEPTED or PART_LATE (R34): last arrival set, and a SILENT station returned to
service. -/
def Station.told (r : Station) (now : Nat) : Station :=
  { r with lastArrival := now, state := if r.state = .silent then r.serviceState else r.state }

/-- A station whose silence timeout has run out at a scan (R36). -/
def Station.isSilentAt (r : Station) (now timeout : Nat) : Bool :=
  r.state.inService && decide (r.lastArrival + million * timeout ≤ now)

/-- A station of a range under context reset (R42): DISABLED, the pending configuration discarded, models, anchor and
history discarded. -/
def Station.contextReset (r : Station) : Station :=
  { r with
    state := .disabled
    pendingConfig := none
    active := none
    staged := none
    anchor := none
    history := [] }

/-- The counters changed by a function. -/
def Station.modCounters (r : Station) (f : StationCounters → StationCounters) : Station :=
  { r with counters := f r.counters }

/-! ### The whole table -/

/-- A station that passes from service to a state out of service, handed on for removal from expected sets (R28, R36,
R42, R105). -/
def State.leaveService (s : State) (n : StationNo) (f : Station → Station) : State :=
  if (s.station n).state.inService then (s.modStation n f).removeExpected n else s.modStation n f

/-- The Station Table's treatment of a boundary (R32). -/
def State.stationBoundary (s : State) : State := s.modAllStations Station.atBoundary

/-- A scan of one station (R36). -/
def State.scanStation (s : State) (n : StationNo) : State :=
  if (s.station n).isSilentAt s.timebase.us s.params.silenceTimeout then
    s.leaveService n fun r => { r with state := .silent }
  else s

/-- A scan of every station in ascending station number (R36). -/
def State.scanStations (s : State) : State := (List.finRange 128).foldl State.scanStation s

/-- The last arrival of every station that is not DISABLED set at the time set (R35). -/
def State.setArrivals (s : State) (now : Nat) : State :=
  s.modAllStations fun r => if r.state = .disabled then r else { r with lastArrival := now }

/-- The stations of slot m's valid range, ascending (R24). -/
def State.rangeStations (s : State) (m : Slot) : List StationNo := (List.finRange 128).filter fun n => s.owns m n

/-- The Station Table's share of a context reset of slot m (R42): its stations disabled one by one, each handed on
before the next, and the entry then made invalid. -/
def State.disableRange (s : State) (m : Slot) : State :=
  ((s.rangeStations m).foldl (fun t n => t.leaveService n Station.contextReset) s).setRangeEntry m none

end Sys2Proof.Machine
end

