-- ==== Sys2Proof/Machine/Probes.lean ====
section
/-! DEFINITION. The Capture Unit and the Clock Model Unit (Chapter 3). -/

namespace Sys2Proof.Machine

/-! ### Captures -/

/-- A pulse added to a ring (R44): the newest of at most 8 entries, with the counter's value; the counter wraps from
255 to 0. -/
def Capture.add (c : Capture) (us : Nat) : Capture :=
  { ring := (if c.ring.length < 8 then c.ring else c.ring.tail) ++ [⟨c.nextSeq, us⟩]
    nextSeq := (c.nextSeq + 1) % 256 }

/-- The network µs of the capture that carries a sequence number, if it is held (R45). -/
def Capture.lookup (c : Capture) (q : Nat) : Option Nat := (c.ring.find? fun e => e.seq == q).map CaptureEntry.us

/-! ### The times of a probe -/

/-- An accepted probe: extended t2 and t3, the offset in half-µs and the round-trip delay (R48, R49). -/
structure Probe where
  t2 : Nat
  t3 : Nat
  offset : Int
  delay : Nat
  deriving DecidableEq, Repr

/-- t2 or t3 extended against a reference that may be absent (R48). -/
def extendAgainst (raw : Nat) (r : Option Int) : Int :=
  match r with
  | some r => extendStamp raw r
  | none => raw

/-- The checks and values of R48 and R49, from t1, t4, the raw stamps, the horizon and the max delay in force. -/
def measureProbe (t1 t4 rawT2 rawT3 : Nat) (horizon : Option Nat) (maxDelay : Nat) : Except RefusalCode Probe :=
  let t2 := extendAgainst rawT2 (horizon.map Int.ofNat)
  let t3 := extendAgainst rawT3 (some t2)
  let delay := ((t4 : Int) - t1) - (t3 - t2)
  if !inTimeRange t2 || !inTimeRange t3 then .error .badProbe
  else if t4 < t1 ∨ t3 < t2 ∨ delay < 0 then .error .badProbe
  else if (maxDelay : Int) < delay then .error .probeDelay
  else .ok ⟨t2.toNat, t3.toNat, ((t1 : Int) - t2) + ((t4 : Int) - t3), delay.toNat⟩

/-! ### Processing an accepted probe -/

/-- The offset in half-µs that a model predicts at a local time (R51). -/
def ActiveModel.predict (a : ActiveModel) (t2 : Nat) : Int :=
  a.offset + 2 * roundDiv (a.drift * ((t2 : Int) - a.reference)) billion

/-- The step test (R51). -/
def ActiveModel.stepped (a : ActiveModel) (p : Probe) (limit : Nat) : Bool :=
  decide (2 * limit < (p.offset - a.predict p.t2).natAbs)

/-- A declared step (R52). -/
def Station.applyStep (r : Station) (a : ActiveModel) (p : Probe) : Station :=
  { r with
    history := [⟨p.t2, p.offset, p.delay⟩]
    anchor := some ⟨p.t2, p.offset⟩
    active := some ⟨p.offset, a.drift, p.t2, p.delay, nextRevision a.revision, false⟩
    staged := none
    horizon := some p.t3
    counters := { r.counters with steps := raise16 r.counters.steps }
    state := if r.state = .tracking then .acquiring else r.state }

/-- A probe appended to a history of at most 8 entries, the oldest removed when 8 are held (R53). -/
def addHistory (h : List HistoryEntry) (p : Probe) : List HistoryEntry :=
  (if h.length < 8 then h else h.tail) ++ [⟨p.t2, p.offset, p.delay⟩]

/-- The selected entry (R54): of least delay, the newest of several. -/
def selectEntry : List HistoryEntry → Option HistoryEntry
  | [] => none
  | e :: t =>
    match selectEntry t with
    | some b => if e.delay < b.delay then some e else some b
    | none => some e

/-- The current reference (R56). -/
def currentReference (staged : Option StagedModel) (a : ActiveModel) : Nat :=
  match staged with
  | some m => m.reference
  | none => a.reference

/-- The base drift of a drift computation (R57). -/
def baseDrift (staged : Option StagedModel) (a : ActiveModel) : Int :=
  match staged with
  | some m => m.drift
  | none => a.drift

/-- The smoothed drift from the anchor to the selected entry, over a span long enough (R57). -/
def smoothedDrift (base : Int) (anchor : Anchor) (sel : HistoryEntry) (shift : Nat) : Int :=
  let span := (sel.t2 : Int) - anchor.t2
  let raw := clamp 200000 (truncDiv ((sel.offset - anchor.offset) * billion) (2 * span))
  base + truncDiv (raw - base) (2 ^ shift)

/-- A new reference (R57, R58, R59): the drift computed when the span from the anchor is long enough, which moves the
anchor, sets the estimated flag and moves an ACQUIRING station to TRACKING; then the staged model written. A station
with an active model has an anchor (R55, R58). -/
def Station.newReference (r : Station) (a : ActiveModel) (sel : HistoryEntry) (p : Params) : Station :=
  let base := baseDrift r.staged a
  match r.anchor with
  | some anchor =>
    if ((million * p.minDriftSpan : Nat) : Int) ≤ (sel.t2 : Int) - anchor.t2 then
      { r with
        anchor := some ⟨sel.t2, sel.offset⟩
        active := some { a with estimated := true }
        state := if r.state = .acquiring then .tracking else r.state
        staged := some ⟨sel.offset, smoothedDrift base anchor sel p.smoothing, sel.t2, sel.delay⟩ }
    else { r with staged := some ⟨sel.offset, base, sel.t2, sel.delay⟩ }
  | none => { r with staged := some ⟨sel.offset, base, sel.t2, sel.delay⟩ }

/-- A staged model that has just been written is held in RUN and made active at once in SETUP (R33). -/
def Station.holdStaged (r : Station) (part : PartState) : Station :=
  if part = .run then r else r.applyStaged

/-- Steps 3 to 6 of R50: the probe enters the history, and the selected entry becomes the first model, changes nothing,
or is a new reference. -/
def Station.selectModel (r : Station) (p : Probe) (params : Params) (part : PartState) : Station :=
  let r1 := { r with history := addHistory r.history p }
  match selectEntry r1.history, r1.active with
  | some sel, none =>
    { r1 with
      active := some ⟨sel.offset, 0, sel.t2, sel.delay, 1, false⟩
      anchor := some ⟨sel.t2, sel.offset⟩ }
  | some sel, some a =>
    if sel.t2 = currentReference r1.staged a then r1 else (r1.newReference a sel params).holdStaged part
  | none, _ => r1

/-- The processing of an accepted probe (R50). -/
def Station.processProbe (r : Station) (p : Probe) (params : Params) (part : PartState) : Station :=
  let r1 := r.modCounters fun c => { c with probesAccepted := raise16 c.probesAccepted }
  match r1.active with
  | some a =>
    if a.stepped p params.stepLimit then r1.applyStep a p
    else (r1.selectModel p params part).raiseHorizon p.t3
  | none => (r1.selectModel p params part).raiseHorizon p.t3

end Sys2Proof.Machine
end

