-- ==== Sys2Proof/Machine/Correct.lean ====
section
/-! DEFINITION. The Correction Unit (Chapter 4): from a BLOCK record and the state at the moment it is taken to a list
of fragments, or a refusal. It writes no state. -/

namespace Sys2Proof.Machine

/-- What a correction hands back (R63): the fragments with their windows in ascending order, the extended stamp
(absent for an ARRIVAL station), and the time of the last sample. -/
structure Corrected where
  fragments : List (Nat × Fragment)
  stamp : Option Nat
  lastTime : Nat
  deriving DecidableEq, Repr

/-- The extended first-sample stamp by mode (R64, R65); absent for an ARRIVAL station. -/
def blockStamp (r : Station) (now : Nat) (rec : IntakeRecord) : Option Int :=
  match r.config.mode with
  | .satellite => some (extendStamp rec.stamp now)
  | .probed => some (extendAgainst rec.stamp (r.horizon.map Int.ofNat))
  | .arrival => none

/-- The corrected start S0 (R66, R67, R68) from the extended stamp (SATELLITE, PROBED), the active model (PROBED) or
the network µs of the named capture (ARRIVAL). -/
def correctedStart (r : Station) (rec : IntakeRecord) (stamp : Int) (capture : Nat) : Int :=
  match r.config.mode with
  | .satellite => stamp + r.config.fixedDelay
  | .probed =>
    match r.active with
    | some a =>
      stamp + roundDiv a.offset 2 + roundDiv ((stamp - a.reference) * a.drift) billion + r.config.fixedDelay
    | none => stamp + r.config.fixedDelay
  | .arrival =>
    (capture : Int) - r.config.linkLatency - rec.count * nominalPeriod r.config.rateCode + r.config.fixedDelay

/-- The period deviation, in units of 2^-16 µs (R69). -/
def periodDeviation (r : Station) : Int :=
  match r.config.mode, r.active with
  | .probed, some a => roundDiv ((nominalPeriod r.config.rateCode : Int) * a.drift * 65536) billion
  | _, _ => 0

/-- The network period p, in units of 2^-16 µs (R69). -/
def networkPeriod (r : Station) : Int := (nominalPeriod r.config.rateCode : Int) * 65536 + periodDeviation r

/-- The network time of sample i (R70). -/
def sampleTime (start period : Int) (i : Nat) : Int := start + floorDiv (i * period + 32768) 65536

/-- The uncertainty of a block (R74). -/
def blockUncertainty (r : Station) (rec : IntakeRecord) (stamp : Int) (p : Params) (hub : Nat) : Nat :=
  min maxUncertainty <|
    match r.config.mode with
    | .satellite => p.satBase + ceilDiv (rec.seconds * p.satGrowth) 1000 + hub
    | .probed =>
      match r.active with
      | some a => ceilDiv a.delay 2 + ceilDiv ((stamp - a.reference).natAbs * p.probeGrowth) billion + hub
      | none => hub
    | .arrival => r.config.jitterBound + hub

/-- The model revision that a block's fragments carry (R73). -/
def blockRevision (r : Station) : Nat :=
  match r.config.mode, r.active with
  | .probed, some a => a.revision
  | _, _ => 0

/-- The estimated flag of a PROBED station's active model is clear (R75, flag ACQUIRING). -/
def blockAcquiring (r : Station) : Bool :=
  match r.config.mode, r.active with
  | .probed, some a => !a.estimated
  | _, _ => false

/-- The windows that hold at least one of some ascending sample times, in ascending order (R71). -/
def windowsOf (p : Params) : List Nat → List Nat
  | [] => []
  | t :: rest =>
    match windowsOf p rest with
    | [] => [p.windowOf t]
    | w :: ws => if p.windowOf t = w then w :: ws else p.windowOf t :: w :: ws

/-- The part of a block that falls in window w (R71): first sample index, sample count, first and last sample time. -/
def runIn (p : Params) (times : List Nat) (w : Nat) : Nat × Nat × Nat × Nat :=
  let first := times.countP fun t => decide (t < p.windowStart w)
  let inside := times.filter fun t => p.windowOf t == w
  (first, inside.length, inside.headD 0, inside.getLastD 0)

/-- The fragment of a block in window w (R73). LOOSE and OVERLAP are set by the Window Store. -/
def makeFragment (s : State) (m : Slot) (n : StationNo) (rec : IntakeRecord) (uncertainty : Nat) (times : List Nat)
    (w : Nat) : Nat × Fragment :=
  let r := s.station n
  let (first, count, firstTime, lastTime) := runIn s.params times w
  (w,
    { station := n
      source := m
      handle := rec.tag
      sequence := rec.sequence
      firstIndex := first
      count := count
      firstTime := firstTime
      lastTime := lastTime
      uncertainty := uncertainty
      deviation := periodDeviation r
      revision := blockRevision r
      loose := false
      overlap := false
      acquiring := blockAcquiring r
      hubHoldover := s.timebase.discipline != .locked
      satUnlocked := r.config.mode == .satellite && !rec.lockFlag
      satStale := r.config.mode == .satellite && decide (s.params.staleLimit ≤ rec.seconds)
      arrival := r.config.mode == .arrival })

/-- The correction of a BLOCK record of slot m for station n (R63); `capture` is the network µs of the capture that an
ARRIVAL record names. -/
def correct (s : State) (m : Slot) (n : StationNo) (rec : IntakeRecord) (capture : Nat) :
    Except RefusalCode Corrected :=
  let r := s.station n
  let stamp := blockStamp r s.timebase.us rec
  let x := stamp.getD 0
  let start := correctedStart r rec x capture
  let period := networkPeriod r
  let last := sampleTime start period (rec.count - 1)
  if !inTimeRange x || start < 0 || (maxUs : Int) < last then .error .outOfRange
  else
    let times := (List.range rec.count).map fun i => (sampleTime start period i).toNat
    let windows := windowsOf s.params times
    if 8 < windows.length then .error .span
    else
      let u := blockUncertainty r rec x s.params (hubTerm s.timebase s.params.hubGrowth)
      .ok ⟨windows.map (makeFragment s m n rec u times), stamp.map Int.toNat, last.toNat⟩

end Sys2Proof.Machine
end

