-- ==== Sys2Proof/Machine/Intake.lean ====
section
/-! DEFINITION. The Intake Unit (Chapter 5): staging and commit, HOLD, the round robin, the checks of BLOCK and PROBE
records, and their outcomes. -/

namespace Sys2Proof.Machine

/-! ### Queues -/

/-- A write to staging word k below 7 stores the value (R78). -/
def State.storeStaging (s : State) (m : Slot) (k : Fin 8) (v : Word) : State :=
  s.modIntake m fun i => { i with staging := i.staging.set k v }

/-- HOLD after the queue count may have reached the threshold (R81, R82). -/
def Intake.holdAtThreshold (i : Intake) : Intake :=
  { i with hold := i.hold || decide (i.threshold ≤ i.queue.length) }

/-- A commit to a queue of fewer than 16 records (R79, R81): word 7 stored, the record joined as the newest, HOLD set
when the count reaches the threshold. -/
def Intake.join (i : Intake) (v : Word) : Intake :=
  let staging := i.staging.set 7 v
  Intake.holdAtThreshold { i with staging := staging, queue := i.queue ++ [staging] }

/-- A write to staging word 7 (R79, R154): the commit, or RETRY when the queue holds 16 records. -/
def State.commitWord (s : State) (m : Slot) (v : Word) : State :=
  if (s.ctx m).intake.queue.length < 16 then (s.modIntake m fun i => i.join v).answer .ok none
  else s.answer .retry none

/-- HOLD cleared by the emptying of the queue, which raises INTAKE OPEN if HOLD was set (R81, R86). -/
def State.clearHold (s : State) (m : Slot) : State :=
  if (s.ctx m).intake.hold then (s.modIntake m fun i => { i with hold := false }).raise m .intakeOpen else s

/-- The head record leaves slot m's queue (R80), which clears HOLD when it was the last (R81). -/
def State.popQueue (s : State) (m : Slot) : State :=
  let s1 := s.modIntake m fun i => { i with queue := i.queue.tail }
  if (s1.ctx m).intake.queue.isEmpty then s1.clearHold m else s1

/-- A slot is eligible when its queue is not empty and its intake is ACTIVE (R83). -/
def State.eligible (s : State) (m : Slot) : Bool :=
  !(s.ctx m).intake.queue.isEmpty && !(s.ctx m).intake.stopped

/-- The slot served next: the first eligible one counting up from the round-robin pointer, from 3 round to 0 (R83). -/
def State.servedSlot (s : State) : Option Slot :=
  [s.rrPointer, s.rrPointer + 1, s.rrPointer + 2, s.rrPointer + 3].find? s.eligible

/-! ### Outcomes -/

/-- A slot's last-refusal record written (R96). -/
def State.writeRefusal (s : State) (m : Slot) (f : LastRefusal) : State :=
  s.modIntake m fun i => { i with lastRefusal := some f }

/-- A MALFORMED head record (R85): the slot STOPPED, the record kept, the last refusal written, INTAKE STOPPED
raised. -/
def State.stopMalformed (s : State) (m : Slot) (rec : IntakeRecord) : State :=
  ((s.modIntake m fun i => { i with stopped := true }).writeRefusal m
    (.malformed (rec.word 0) (rec.word 1) (rec.word 2))).raise m .intakeStopped

/-- A counter of the station a record names, when its number is 0 to 127 (R92, R93). -/
def State.countAtStation (s : State) (rec : IntakeRecord) (f : StationCounters → StationCounters) : State :=
  match stationOf rec.station with
  | some n => s.modStation n fun r => r.modCounters f
  | none => s

/-- A refused record (R92, R93): the slot's refused counter and last-refusal record. -/
def State.refuseAtSlot (s : State) (m : Slot) (rec : IntakeRecord) (kind : RecordKind) (code : RefusalCode) : State :=
  (s.modIntake m fun i => { i with refused := raise16 i.refused }).writeRefusal m
    (.refused code kind rec.station rec.tag)

/-- A refused BLOCK record (R92). -/
def State.refuseBlock (s : State) (m : Slot) (rec : IntakeRecord) (code : RefusalCode) : State :=
  (s.countAtStation rec fun c =>
    { c with
      refusals := raise16 c.refusals
      duplicates := if code = .duplicate then raise16 c.duplicates else c.duplicates }).refuseAtSlot m rec .block code

/-- A refused PROBE record (R93). -/
def State.refuseProbe (s : State) (m : Slot) (rec : IntakeRecord) (code : RefusalCode) : State :=
  (s.countAtStation rec fun c =>
    { c with
      refusals := raise16 c.refusals
      probesRefused := raise16 c.probesRefused }).refuseAtSlot m rec .probe code

/-! ### A BLOCK record -/

/-- Step 12's classification of a sequence number (R89): none when it passes. -/
def classifySequence (q : Option SequenceState) (s : Nat) : Option RefusalCode :=
  match q with
  | none => none
  | some q =>
    let d := behind q.last s
    if d = 0 then some .duplicate
    else if d ≤ 32 then (if q.seen.contains s then some .duplicate else none)
    else if d ≤ 32767 then some .staleSeq
    else none

/-- Steps 2 to 8 of Table 5-1 (R87): the station and, for an ARRIVAL station, the network µs of its capture. -/
def State.checkBlock (s : State) (m : Slot) (rec : IntakeRecord) : Except RefusalCode (StationNo × Nat) :=
  if s.part = .setup then .error .state
  else
    match stationOf rec.station with
    | none => .error .notOwner
    | some n =>
      let r := s.station n
      if !s.owns m n then .error .notOwner
      else if r.state = .disabled then .error .disabled
      else if rec.rateCode ≠ r.config.rateCode then .error .rate
      else if rec.count = 0 ∨ 512 < rec.count then .error .count
      else
        match r.config.mode with
        | .satellite => .ok (n, 0)
        | .probed => if r.active.isNone then .error .noModel else .ok (n, 0)
        | .arrival =>
          match (s.ctx m).capture.lookup rec.captureSeq with
          | some c => .ok (n, c)
          | none => .error .staleCapture

/-- A target window that the Store holds already has a fragment of the record's station and sequence number (R90). -/
def State.alreadyFiled (s : State) (n : StationNo) (seq : Nat) (list : List (Nat × Fragment)) : Bool :=
  list.any fun wf =>
    (s.findWindow wf.1).any fun w => w.fragments.any fun f => decide (f.station = n) && f.sequence == seq

/-- Steps 2 to 12 of Table 5-1 (R87, R88, R89, R90): the station and its corrected block, or the first failure. -/
def State.judgeBlock (s : State) (m : Slot) (rec : IntakeRecord) : Except RefusalCode (StationNo × Corrected) :=
  match s.checkBlock m rec with
  | .error e => .error e
  | .ok (n, capture) =>
    match correct s m n rec capture with
    | .error e => .error e
    | .ok c =>
      if s.params.windowStart (s.params.windowOf s.timebase.us + 2) ≤ c.lastTime then .error .future
      else
        match classifySequence (s.station n).sequence rec.sequence with
        | some e => .error e
        | none => if s.alreadyFiled n rec.sequence c.fragments then .error .duplicate else .ok (n, c)

/-- What every outcome of ACCEPTED, PART_LATE and LATE does to the station (R91): the sequence number marked, the horizon
raised, a SATELLITE station's lock fields copied. -/
def Station.afterBlock (r : Station) (rec : IntakeRecord) (stamp : Option Nat) : Station :=
  let r1 := r.mark rec.sequence
  let r2 := match stamp with
    | some x => r1.raiseHorizon x
    | none => r1
  if r.config.mode = .satellite then { r2 with lastLock := rec.lockFlag, lastSeconds := rec.seconds } else r2

/-- A block of which at least one fragment was entered (R91): blocks accepted, last arrival, return to service. -/
def Station.afterAccepted (r : Station) (now : Nat) : Station :=
  (r.modCounters fun c => { c with blocksAccepted := raise16 c.blocksAccepted }).told now

/-- The effects of an outcome with `entered` fragments entered and `dropped` dropped (R90, R91). -/
def State.blockOutcome (s : State) (m : Slot) (n : StationNo) (rec : IntakeRecord) (stamp : Option Nat)
    (entered dropped : Nat) : State :=
  let s1 := s.modStation n fun r => r.afterBlock rec stamp
  if entered = 0 then s1.modIntake m fun i => { i with late := raise16 i.late }
  else
    (s1.modStation n fun r => r.afterAccepted s.timebase.us).modIntake m fun i =>
      if dropped = 0 then { i with accepted := raise16 i.accepted } else { i with partLate := raise16 i.partLate }

/-- A BLOCK record taken (R87 to R92). -/
def State.takeBlock (s : State) (m : Slot) (rec : IntakeRecord) : State :=
  match s.judgeBlock m rec with
  | .error e => s.refuseBlock m rec e
  | .ok (n, c) =>
    match s.placeFragments c.fragments with
    | (s1, none) => s1.refuseBlock m rec .poolFull
    | (s1, some (entered, dropped)) => s1.blockOutcome m n rec c.stamp entered dropped

/-! ### A PROBE record -/

/-- The checks of a PROBE record after well-formedness (R93): the station and the measured probe. -/
def State.judgeProbe (s : State) (m : Slot) (rec : IntakeRecord) : Except RefusalCode (StationNo × Probe) :=
  match stationOf rec.station with
  | none => .error .notOwner
  | some n =>
    let r := s.station n
    if !s.owns m n then .error .notOwner
    else if r.state = .disabled then .error .disabled
    else if r.config.mode ≠ .probed then .error .mode
    else
      match (s.ctx m).capture.lookup rec.sendSeq, (s.ctx m).capture.lookup rec.receiveSeq with
      | some t1, some t4 =>
        match measureProbe t1 t4 rec.rawT2 rec.rawT3 r.horizon s.params.maxDelay with
        | .ok p => .ok (n, p)
        | .error e => .error e
      | _, _ => .error .staleCapture

/-- A PROBE record taken (R93): refused, or processed by R50 with the slot's probes-accepted counter raised. -/
def State.takeProbe (s : State) (m : Slot) (rec : IntakeRecord) : State :=
  match s.judgeProbe m rec with
  | .error e => s.refuseProbe m rec e
  | .ok (n, p) =>
    (s.modStation n fun r => r.processProbe p s.params s.part).modIntake m fun i =>
      { i with probesAccepted := raise16 i.probesAccepted }

/-! ### Taking -/

/-- The head record of slot m taken (R83, R84, R85). -/
def State.takeHead (s : State) (m : Slot) (rec : IntakeRecord) : State :=
  match rec.wellFormedKind with
  | none => s.stopMalformed m rec
  | some .block => (s.popQueue m).takeBlock m rec
  | some .probe => (s.popQueue m).takeProbe m rec

/-- One taking (R83): the head record of the slot served, and the pointer set to the slot after it. With no slot
eligible nothing is taken. -/
def State.takeRecord (s : State) : State :=
  match s.servedSlot with
  | none => s
  | some m =>
    match (s.ctx m).intake.queue with
    | [] => s
    | rec :: _ => { s.takeHead m rec with rrPointer := m + 1 }

/-! ### Requests and resets of intake -/

/-- What INTAKE RESET does to slot m (R86): the queue and staging words emptied, ACTIVE, HOLD cleared with INTAKE
OPEN. -/
def State.resetIntakeQueue (s : State) (m : Slot) : State :=
  (s.modIntake m fun i => { i with queue := [], staging := Vector.replicate 8 0, stopped := false }).clearHold m

end Sys2Proof.Machine
end

