-- ==== Sys2Proof/Machine/Timebase.lean ====
section
/-! DEFINITION. The Timebase Unit (Chapter 1): the advance of fine time and the events it raises, the reference pulse
in each discipline state, and the events of network time. -/

namespace Sys2Proof.Machine

/-! ### Fine time -/

/-- The effective trim T (R2). -/
def Timebase.trim (t : Timebase) : Int := clamp trimLimit (t.freqPart + t.phasePart)

/-- Fine time in units of 2^-32 µs (R1). -/
def Timebase.fine (t : Timebase) : Nat := usUnits * t.us + t.frac

/-- The step of one oscillator cycle, in units of 2^-32 µs (R1). -/
def Timebase.step (t : Timebase) : Nat := ((nominalStep : Int) + t.trim).toNat

/-- Fine time advanced by one step, held at 2^56 - 1 µs with fraction 2^32 - 1 when the step would carry it past
(R1). -/
def Timebase.advanceFine (t : Timebase) : Timebase :=
  let sum := t.fine + t.step
  if maxUs < sum / usUnits then { t with us := maxUs, frac := usUnits - 1 }
  else { t with us := sum / usUnits, frac := sum % usUnits }

/-- The part of a slew that one oscillator cycle removes (R13). -/
def Timebase.advanceSlew (t : Timebase) : Timebase :=
  if t.discipline = .slewing then { t with slewRemainder := t.slewRemainder - t.phasePart.natAbs } else t

/-- The window number of the boundary event that reaching a network µs raises (R18). -/
def boundaryAt (p : Params) (us : Nat) : Option Nat :=
  if us % p.windowUs = 0 then some (us / p.windowUs) else none

/-- The window number of the expiry event that reaching a network µs raises (R19). -/
def expiryAt (p : Params) (us : Nat) : Option Nat :=
  if p.windowUs + p.holdUs ≤ us ∧ (us - p.holdUs) % p.windowUs = 0 then some ((us - p.holdUs) / p.windowUs - 1)
  else none

/-- Reaching a network µs raises a scan event: a whole multiple of 2^(k+1) (R20). -/
def scanAt (p : Params) (us : Nat) : Bool := us % 2 ^ (p.scanBit + 1) == 0

/-- The events raised when the network µs has reached a new value in LOCKED, HOLDOVER or SLEWING (R18, R19, R20). -/
def Timebase.raiseEvents (t : Timebase) (p : Params) (before : Nat) : Timebase :=
  if t.us ≠ before ∧ t.discipline.valid then
    { t with
      boundaryDue := boundaryAt p t.us
      expiryDue := expiryAt p t.us
      scanDue := scanAt p t.us }
  else t

/-- One oscillator cycle of the Timebase (R1, R13, R18 to R20). -/
def Timebase.cycle (t : Timebase) (p : Params) : Timebase :=
  (t.advanceFine.advanceSlew).raiseEvents p t.us

/-! ### Changes of discipline state -/

/-- A new Timebase; a change of discipline state raises TIMEBASE at all four slots (R14). -/
def State.withTimebase (s : State) (t : Timebase) : State :=
  if t.discipline = s.timebase.discipline then s.setTimebase t else (s.setTimebase t).raiseAll .timebase

/-- Entry to HOLDOVER at the present network µs (R9, R10): P, the slew remainder and both run counts 0. -/
def Timebase.enterHoldover (t : Timebase) : Timebase :=
  { t with
    discipline := .holdover
    phasePart := 0
    slewRemainder := 0
    badRun := 0
    goodRun := 0
    holdoverStart := t.us }

/-! ### The reference pulse -/

/-- Units of fine time in one second. -/
def secondUnits : Nat := million * usUnits

/-- The pulse error e (R3): fine time less the nearest whole second, a time exactly halfway counting toward the later
one. -/
def Timebase.pulseError (t : Timebase) : Int :=
  ((secondUnits / 2 + t.fine) % secondUnits : Nat) - (secondUnits / 2 : Nat)

/-- A pulse error in window (R3). -/
def inWindow (p : Params) (e : Int) : Bool := decide (e.natAbs ≤ usUnits * p.lockWindow)

/-- The measurement of a pulse (R3): e_last, the counters and the missing-pulse deadline. -/
def Timebase.measure (t : Timebase) (p : Params) : Timebase :=
  { t with
    lastError := t.pulseError
    pulsesTaken := raise16 t.pulsesTaken
    outOfWindow := if inWindow p t.pulseError then t.outOfWindow else raise16 t.outOfWindow
    deadline := some (t.us + 1500000) }

/-- The discipline update (R8) from a pulse error. -/
def Timebase.disciplineUpdate (t : Timebase) (p : Params) (e : Int) : Timebase :=
  { t with
    phasePart := -truncDiv e (125 * 2 ^ (16 + p.gp))
    freqPart := clamp trimLimit (t.freqPart - truncDiv e (125 * 2 ^ (16 + p.gi)))
    badRun := 0 }

/-- A measured pulse in LOCKED (R8, R9). -/
def Timebase.lockedPulse (t : Timebase) (p : Params) (e : Int) : Timebase :=
  if inWindow p e then t.disciplineUpdate p e
  else if 3 ≤ t.badRun + 1 then t.enterHoldover
  else { t with phasePart := 0, badRun := t.badRun + 1 }

/-- A measured pulse in HOLDOVER (R11). -/
def Timebase.holdoverPulse (t : Timebase) (p : Params) (e : Int) : Timebase :=
  if inWindow p e then
    if 3 ≤ t.goodRun then { t.disciplineUpdate p e with discipline := .locked, goodRun := 0 }
    else { t with goodRun := t.goodRun + 1 }
  else { t with goodRun := 0 }

/-- A measured pulse in SLEWING (R13). -/
def Timebase.slewingPulse (t : Timebase) (p : Params) (e : Int) : Timebase :=
  if inWindow p e then { t.disciplineUpdate p e with discipline := .locked, slewRemainder := 0 }
  else { t with phasePart := -trimLimit * e.sign - t.freqPart, slewRemainder := e.natAbs }

/-- The time set of a pulse in ARMED (R5), by the SET TIME in flight. -/
def Timebase.setTime (t : Timebase) (f : SetTimeInFlight) : Timebase :=
  { t with
    us := million * f.second
    frac := 0
    discipline := .locked
    phasePart := 0
    lastError := 0
    badRun := 0
    goodRun := 0
    deadline := some (million * f.second + 1500000)
    inFlight := none }

/-- A pulse taken in ARMED (R5, R35): time set, LOCKED, the last arrivals set, SET TIME completed with OK and N. -/
def State.armedPulse (s : State) : State :=
  match s.timebase.inFlight with
  | some f =>
    (((s.withTimebase (s.timebase.setTime f)).setArrivals (million * f.second)).complete f.slot .ok
      ⟨loWord f.second, hiWord f.second, 0⟩)
  | none => s

/-- A pulse taken by the Timebase (R3). -/
def State.takePulse (s : State) : State :=
  let t := s.timebase
  let e := t.pulseError
  match t.discipline with
  | .free => s
  | .armed => s.armedPulse
  | .locked => s.withTimebase ((t.measure s.params).lockedPulse s.params e)
  | .holdover => s.withTimebase ((t.measure s.params).holdoverPulse s.params e)
  | .slewing => s.withTimebase ((t.measure s.params).slewingPulse s.params e)

/-! ### Events that wait for a value -/

/-- The Timebase back in FREE with nothing in flight (R6, R7). -/
def Timebase.disarm (t : Timebase) : Timebase := { t with discipline := .free, inFlight := none }

/-- The ARMED expiry (R6), when the network µs has reached the arm time plus 2,000,000 in ARMED; otherwise there is no
such event. -/
def State.takeArmedExpiry (s : State) : State :=
  match s.timebase.discipline, s.timebase.inFlight with
  | .armed, some f =>
    if f.armTime + 2000000 ≤ s.timebase.us then
      (s.withTimebase s.timebase.disarm).completeBare f.slot .timeout
    else s
  | _, _ => s

/-- The missing-pulse event at the present network µs (R10). -/
def Timebase.missPulse (t : Timebase) : Timebase :=
  let t1 := { t with missingPulses := raise16 t.missingPulses, deadline := some (t.us + 1000000) }
  match t.discipline with
  | .locked | .slewing => t1.enterHoldover
  | .holdover => { t1 with goodRun := 0 }
  | .free | .armed => t

/-- The missing-pulse event (R10), when the network µs has reached the deadline; otherwise there is no such event. -/
def State.takeMissingPulse (s : State) : State :=
  match s.timebase.deadline with
  | some d =>
    if s.timebase.discipline.valid ∧ d ≤ s.timebase.us then s.withTimebase s.timebase.missPulse else s
  | none => s

/-- The slew remainder of a slew is used up: it is below |P|, or is 0 (R13). -/
def Timebase.slewEnded (t : Timebase) : Bool :=
  t.discipline == .slewing && (decide (t.slewRemainder < t.phasePart.natAbs) || t.slewRemainder == 0)

/-- The end of a slew (R13): P and the remainder 0. -/
def State.takeSlewEnd (s : State) : State :=
  if s.timebase.slewEnded then s.setTimebase { s.timebase with phasePart := 0, slewRemainder := 0 } else s

/-! ### Boundary, expiry and scan events -/

/-- The boundary event that waits, if one does, taken by the Station Table and the Window Store (R18, R32, R112). -/
def State.takeBoundary (s : State) : State :=
  match s.timebase.boundaryDue with
  | some b => ((s.setTimebase { s.timebase with boundaryDue := none }).stationBoundary).windowBoundary b
  | none => s

/-- The expiry event that waits, if one does (R19, R113). -/
def State.takeExpiry (s : State) : State :=
  match s.timebase.expiryDue with
  | some w => (s.setTimebase { s.timebase with expiryDue := none }).endCheck s.timebase.us w
  | none => s

/-- The scan event that waits, if one does (R20, R36). -/
def State.takeScan (s : State) : State :=
  if s.timebase.scanDue then (s.setTimebase { s.timebase with scanDue := false }).scanStations else s

/-- Every event whose moment is the present network µs taken, in one fixed order (log 5). -/
def State.takeDueEvents (s : State) : State :=
  s.takeSlewEnd.takeArmedExpiry.takeMissingPulse.takeBoundary.takeExpiry.takeScan

/-- One oscillator cycle (R1): network time leaves a value only when the events of that value have been taken, then
fine time advances. -/
def State.takeCycle (s : State) : State :=
  let s1 := s.takeDueEvents
  s1.setTimebase (s1.timebase.cycle s1.params)

/-! ### The capture lines -/

/-- A pulse on CAPm (R44): ignored in FREE and ARMED, and otherwise an entry of ring m. -/
def State.takeCapture (s : State) (m : Slot) : State :=
  if s.timebase.discipline.valid then s.modCapture m fun c => c.add s.timebase.us else s

end Sys2Proof.Machine
end

