-- ==== Sys2Proof/Machine/Readers.lean ====
section
/-! DEFINITION. The Reader Unit (Chapter 7) with the words it returns: the notice port, the manifest, the station
snapshot and the cursor data port (11 sections 11.5 and 11.6). -/

namespace Sys2Proof.Machine

/-! ### Codes (Table 11-4) -/

/-- The code of a close reason. -/
def CloseReason.code : CloseReason → Nat
  | .expiry => 1
  | .complete => 2
  | .flush => 3

/-- The code of a mode. -/
def Mode.code : Mode → Nat
  | .satellite => 0
  | .probed => 1
  | .arrival => 2

/-- The code of a station state. -/
def StationState.code : StationState → Nat
  | .disabled => 0
  | .acquiring => 1
  | .tracking => 2
  | .silent => 3

/-! ### The notice port -/

/-- The pop word of a read that popped a notice, with the notices left and the overflow flag (Table 11-8). -/
def popWord (nt : Notice) (left : Nat) (overflow : Bool) : Word :=
  flagBit true 31 ||| flagBit overflow 30 ||| atBit nt.reason.code 28 ||| atBit left 24 ||| atBit nt.expected 8
    ||| atBit nt.covered 0

/-- The empty marker with the overflow flag as it stands (R126, Table 11-8). -/
def emptyMarker (overflow : Bool) : Word := flagBit overflow 30

/-- Latch word 1: bits 31 to 0 of the window number; 0 while the latch is cleared (Table 11-8). -/
def latchWord1 : Option Notice → Word
  | some nt => loWord nt.window
  | none => 0

/-- Latch word 2: the fragment count and the window number's higher bits; 0 while the latch is cleared (Table 11-8). -/
def latchWord2 : Option Notice → Word
  | some nt => atBit nt.fragments 0 ||| atBit (nt.window >>> 32) 16
  | none => 0

/-- A read of the pop word (R126, R140). -/
def State.popNotice (s : State) (m : Slot) : State × Word :=
  let r := (s.ctx m).reader
  match r.notices with
  | nt :: rest =>
    let s1 := s.modReader m fun r => { r with notices := rest, latch := some nt }
    (if rest.isEmpty then s1.modAttention m fun a => a.clear .closed else s1, popWord nt rest.length r.overflow)
  | [] => (s.modReader m fun r => { r with latch := none }, emptyMarker r.overflow)

/-! ### Markers -/

/-- The end marker (R178). -/
def endMarker : Word := 0xFFFF0000#32

/-- The RECLAIMED marker (R178). -/
def reclaimedMarker : Word := 0xFFFF0001#32

/-! ### The manifest -/

/-- 32 stations of a set in one word: bit i stands for station 32j + i (Table 11-9). -/
def setWord (set : List StationNo) (j : Nat) : Word :=
  set.foldl (fun v n => if n.val / 32 = j then v ||| atBit 1 (n.val % 32) else v) 0

/-- The words of a manifest's header (Table 11-9). -/
def Window.headerWord (w : Window) : Nat → Word
  | 0 => loWord w.number
  | 1 =>
    atBit (w.number >>> 32) 0 ||| atBit (match w.closed with | some r => r.code | none => 0) 8
      ||| atBit w.fragments.length 16
  | 2 => atBit w.expected.length 0 ||| atBit w.covered.length 16
  | 3 => setWord w.expected 0
  | 4 => setWord w.expected 1
  | 5 => setWord w.expected 2
  | 6 => setWord w.expected 3
  | 7 => setWord w.covered 0
  | 8 => setWord w.covered 1
  | 9 => setWord w.covered 2
  | _ => setWord w.covered 3

/-- The six words of a fragment, whose window starts at `start` (Table 11-10). -/
def Fragment.word (f : Fragment) (start : Nat) : Nat → Word
  | 0 =>
    atBit f.station.val 0 ||| atBit f.source.val 7 ||| flagBit f.loose 9 ||| flagBit f.overlap 10 ||| flagBit f.acquiring 11
      ||| flagBit f.hubHoldover 12 ||| flagBit f.satUnlocked 13 ||| flagBit f.satStale 14 ||| flagBit f.arrival 15
      ||| atBit f.firstIndex 16
  | 1 => f.handle
  | 2 => atBit f.sequence 0 ||| atBit f.count 16 ||| atBit (field (hiWordInt f.deviation) 0 3) 26
  | 3 => atBit (f.firstTime - start) 0
  | 4 => atBit f.uncertainty 0 ||| atBit f.revision 24
  | _ => loWordInt f.deviation

/-- The length of a window's manifest in words (R131). -/
def Window.manifestLength (w : Window) : Nat := 11 + 6 * w.fragments.length

/-- The word at a position of a window's manifest (R131); past the last word, the end marker. -/
def Window.manifestWord (w : Window) (p : Params) (pos : Nat) : Word :=
  if pos < 11 then w.headerWord pos
  else
    match w.fragments[(pos - 11) / 6]? with
    | some f => f.word (p.windowStart w.number) ((pos - 11) % 6)
    | none => endMarker

/-! ### The station snapshot -/

/-- The sixteen words of a station snapshot (R130, Table 11-11). Fields of an absent part read 0. -/
def Station.snapshot (r : Station) (n : StationNo) : Vector Word 16 :=
  let a := r.active.getD ⟨0, 0, 0, 0, 0, false⟩
  let c := r.counters
  #v[
    atBit n.val 0 ||| atBit r.state.code 8 ||| atBit r.config.mode.code 10 ||| atBit r.config.rateCode 12
      ||| flagBit r.pendingConfig.isSome 16 ||| flagBit r.sequence.isSome 17 ||| flagBit r.horizon.isSome 18
      ||| flagBit r.active.isSome 19 ||| flagBit r.staged.isSome 20 ||| flagBit r.anchor.isSome 21 ||| flagBit a.estimated 22
      ||| atBit r.history.length 24,
    atBit ((r.sequence.map SequenceState.last).getD 0) 0 ||| atBit r.lastSeconds 16 ||| flagBit r.lastLock 31,
    loWord (r.horizon.getD 0),
    hiWord (r.horizon.getD 0),
    loWordInt a.offset,
    hiWordInt a.offset,
    loWord a.reference,
    hiWord a.reference,
    loWordInt a.drift,
    atBit a.delay 0 ||| atBit a.revision 24,
    loWord r.lastArrival,
    hiWord r.lastArrival,
    atBit c.blocksAccepted 0 ||| atBit c.fragmentsLate 16,
    atBit c.duplicates 0 ||| atBit c.sequenceGaps 16,
    atBit c.refusals 0 ||| atBit c.probesAccepted 16,
    atBit c.probesRefused 0 ||| atBit c.steps 16]

/-! ### The cursor data port -/

/-- The length of what a cursor stands on: 11 + 6f words of a held window, 16 of a station snapshot (R132). -/
def State.targetLength (s : State) : CursorTarget → Option Nat
  | .none => none
  | .window n => (s.findWindow n).map Window.manifestLength
  | .station _ => some 16

/-- The word of a cursor's target at a position (R132). -/
def State.targetWord (s : State) (c : Cursor) : Word :=
  match c.target with
  | .none => endMarker
  | .window n => match s.findWindow n with
    | some w => w.manifestWord s.params c.position
    | none => reclaimedMarker
  | .station _ => c.snapshot.toList.getD c.position 0

/-- A cursor moved to a position of a target of a length: READING below it, AT END at it (R132, R133). -/
def Cursor.moveTo (c : Cursor) (pos length : Nat) : Cursor :=
  if pos < length then { c with position := pos, condition := .reading }
  else { c with position := length, condition := .atEnd }

/-- A read of the cursor data port (R132). -/
def State.readCursor (s : State) (m : Slot) : State × Word :=
  let c := (s.ctx m).reader.cursor
  match c.condition with
  | .none => (s, endMarker)
  | .atEnd => (s, endMarker)
  | .gone => (s, reclaimedMarker)
  | .reading =>
    match s.targetLength c.target with
    | some len => (s.modReader m fun r => { r with cursor := c.moveTo (c.position + 1) len }, s.targetWord c)
    | none => (s, s.targetWord c)

/-- A write to the cursor data port (R133): the position in READING and AT END, nothing in GONE and NONE. -/
def State.moveCursor (s : State) (m : Slot) (v : Nat) : State :=
  let c := (s.ctx m).reader.cursor
  match c.condition with
  | .none | .gone => s
  | .reading | .atEnd =>
    match s.targetLength c.target with
    | some len => s.modReader m fun r => { r with cursor := c.moveTo v len }
    | none => s

/-- A cursor set by OPEN CURSOR (R128). -/
def State.setCursor (s : State) (m : Slot) (c : Cursor) : State := s.modReader m fun r => { r with cursor := c }

end Sys2Proof.Machine
end

