-- ==== Sys2Proof/Machine/Requests.lean ====
section
/-! DEFINITION. The eighteen requests of Table 9-4 as their owning blocks take them, each with its checks in order, its
effect and its completion (Chapters 1, 2, 5, 7, 9 and 10; result values by Table 11-3). -/

namespace Sys2Proof.Machine

/-- The code of a discipline state (Table 11-4). -/
def Discipline.code : Discipline → Nat
  | .free => 0
  | .armed => 1
  | .locked => 2
  | .holdover => 3
  | .slewing => 4

/-! ### The Timebase's requests -/

/-- SET TIME taken in FREE with N in range (R4): ARMED, and the request slot IN FLIGHT with its result PENDING (R160). -/
def State.arm (s : State) (m : Slot) (second : Nat) : State :=
  (s.withTimebase
      { s.timebase with discipline := .armed, inFlight := some ⟨m, second, s.timebase.us⟩ }).modRequest m fun r =>
    { r with inFlight := true, result := ⟨r.lastCode, r.number, .pending, Values.zero⟩ }

/-- SET TIME (R4). -/
def State.requestSetTime (s : State) (m : Slot) : State :=
  match s.timebase.discipline with
  | .armed => s.completeBare m .busy
  | .locked | .holdover | .slewing => s.completeBare m .state
  | .free =>
    if maxSecond < s.argWide m 0 1 then s.completeBare m .badArg else s.arm m (s.argWide m 0 1)

/-- REACQUIRE (R12). -/
def State.requestReacquire (s : State) (m : Slot) : State :=
  if s.timebase.discipline = .holdover then
    (s.withTimebase { s.timebase with discipline := .slewing, goodRun := 0, badRun := 0 }).completeBare m .ok
  else s.completeBare m .state

/-- READ TIME (R16). -/
def State.requestReadTime (s : State) (m : Slot) : State :=
  s.complete m .ok
    ⟨loWord s.timebase.us, hiWord s.timebase.us,
      atBit s.timebase.discipline.code 24 ||| atBit (hubTerm s.timebase s.params.hubGrowth) 0⟩

/-! ### The Station Table's requests -/

/-- A power of two from 1 to 128 (R24). -/
def rangeSizes : List Nat := [1, 2, 4, 8, 16, 32, 64, 128]

/-- The range that SET RANGE asks for (R25): none when the arguments fail its first check, otherwise the entry, which is
the invalid one for base 0 and size 0. -/
def askedRange (base size : Nat) : Option (Option Range) :=
  if size = 0 ∧ base = 0 then some none
  else if rangeSizes.contains size ∧ base % size = 0 ∧ base + size ≤ 128 then some (some ⟨base, size⟩)
  else none

/-- Two range entries share a station. -/
def Range.meets (a b : Range) : Bool := decide (a.base < b.base + b.size) && decide (b.base < a.base + a.size)

/-- An entry covers a station; an invalid entry covers none (R24). -/
def rangeCovers (r : Option Range) (n : Nat) : Bool := r.any fun x => x.covers n

/-- A new range shares a station with the valid entry of another slot (R25). -/
def State.rangeOverlaps (s : State) (m : Slot) (r : Option Range) : Bool :=
  (List.finRange 4).any fun k =>
    decide (k ≠ m) && r.any fun a => (s.ctx k).range.any fun b => a.meets b

/-- A station of slot m's current range that is not DISABLED lies outside a new range (R25). -/
def State.rangeStrands (s : State) (m : Slot) (r : Option Range) : Bool :=
  (s.rangeStations m).any fun n => decide ((s.station n).state ≠ .disabled) && !rangeCovers r n.val

/-- SET RANGE (R25). -/
def State.requestSetRange (s : State) (m : Slot) : State :=
  match askedRange (s.argNat m 0) (s.argNat m 1) with
  | none => s.completeBare m .badArg
  | some r =>
    if s.rangeOverlaps m r then s.completeBare m .overlap
    else if s.rangeStrands m r then s.completeBare m .busy
    else
      (s.setRangeEntry m r).complete m .ok
        (match r with
          | some x => ⟨loWord x.base, loWord x.size, 1⟩
          | none => Values.zero)

/-- The checks of an owner request (R26), then what the request does with its station. -/
def State.ownerRequest (s : State) (m : Slot) (act : StationNo → State) : State :=
  match stationOf (s.argNat m 0) with
  | none => s.completeBare m .badArg
  | some n => if s.owns m n then act n else s.completeBare m .notOwner

/-- ENABLE STATION (R27). -/
def State.requestEnableStation (s : State) (m : Slot) : State :=
  s.ownerRequest m fun n =>
    if (s.station n).state = .disabled then
      (s.modStation n fun r => { r with state := r.serviceState, lastArrival := s.timebase.us }).completeBare m .ok
    else s.completeBare m .state

/-- DISABLE STATION (R28). -/
def State.requestDisableStation (s : State) (m : Slot) : State :=
  s.ownerRequest m fun n =>
    if (s.station n).state = .disabled then s.completeBare m .ok
    else (s.leaveService n fun r => { r.applyPending with state := .disabled }).completeBare m .ok

/-- The mode a mode argument names (Table 11-4). -/
def modeOf : Nat → Option Mode
  | 0 => some .satellite
  | 1 => some .probed
  | 2 => some .arrival
  | _ => none

/-- The configuration that the arguments of CONFIGURE STATION give, when each lies in its range (R29). -/
def State.askedConfig (s : State) (m : Slot) : Option StationConfig :=
  match modeOf (s.argNat m 1) with
  | none => none
  | some mode =>
    if s.argNat m 2 ≤ 9 ∧ -500000 ≤ s.argInt m 3 ∧ s.argInt m 3 ≤ 500000 ∧ s.argNat m 4 ≤ 10000000
        ∧ s.argNat m 5 ≤ 16777215 then
      some ⟨mode, s.argNat m 2, s.argInt m 3, s.argNat m 4, s.argNat m 5⟩
    else none

/-- CONFIGURE STATION (R29, R30). -/
def State.requestConfigureStation (s : State) (m : Slot) : State :=
  s.ownerRequest m fun n =>
    match s.askedConfig m with
    | none => s.completeBare m .badArg
    | some c =>
      if (s.station n).state ≠ .disabled ∧ s.part = .run then
        (s.modStation n fun r => { r with pendingConfig := some c }).complete m .ok ⟨2, 0, 0⟩
      else (s.modStation n fun r => r.applyConfig c).complete m .ok ⟨1, 0, 0⟩

/-- CLEAR COUNTERS (R41). -/
def State.requestClearCounters (s : State) (m : Slot) : State :=
  s.ownerRequest m fun n => (s.modStation n fun r => { r with counters := StationCounters.zero }).completeBare m .ok

/-! ### The Intake Unit's requests -/

/-- INTAKE RESET (R86). -/
def State.requestIntakeReset (s : State) (m : Slot) : State := (s.resetIntakeQueue m).completeBare m .ok

/-- SET THRESHOLD (R82). -/
def State.requestSetThreshold (s : State) (m : Slot) : State :=
  if [4, 8, 12, 15].contains (s.argNat m 0) then
    (s.modIntake m fun i => Intake.holdAtThreshold { i with threshold := s.argNat m 0 }).completeBare m .ok
  else s.completeBare m .badArg

/-! ### The readers' requests -/

/-- ENROL (R123). -/
def State.requestEnrol (s : State) (m : Slot) : State :=
  (s.modReader m fun r => { r with enrolled := true }).complete m .ok
    ⟨flagBit (s.ctx m).reader.enrolled 0, 0, 0⟩

/-- WITHDRAW (R124). -/
def State.requestWithdraw (s : State) (m : Slot) : State :=
  if (s.ctx m).reader.enrolled then
    let p := (s.modReader m fun r => { r with enrolled := false }).releaseAll m
    p.1.complete m .ok ⟨atBit p.2 0, 0, 0⟩
  else s.completeBare m .ok

/-- OPEN CURSOR on window n (R129). -/
def State.openWindowCursor (s : State) (m : Slot) (n : Nat) : State :=
  match s.findWindow n with
  | some w =>
    if w.isOpen then (s.setCursor m Cursor.none).completeBare m .notClosed
    else
      (s.setCursor m { Cursor.none with target := .window n, condition := .reading }).complete m .ok
        ⟨atBit w.fragments.length 0, atBit w.manifestLength 0, 0⟩
  | none => (s.setCursor m Cursor.none).completeBare m .noWindow

/-- OPEN CURSOR on station n (R130). -/
def State.openStationCursor (s : State) (m : Slot) (n : StationNo) : State :=
  (s.setCursor m ⟨.station n, 0, .reading, (s.station n).snapshot n⟩).complete m .ok
    ⟨atBit n.val 0, atBit (s.station n).state.code 0, 0⟩

/-- OPEN CURSOR (R128). -/
def State.requestOpenCursor (s : State) (m : Slot) : State :=
  match s.argNat m 0 with
  | 1 => s.openWindowCursor m (s.argWide m 1 2)
  | 2 =>
    match stationOf (s.argWide m 1 2) with
    | some n => s.openStationCursor m n
    | none => s.completeBare m .badArg
  | _ => s.completeBare m .badArg

/-- RELEASE (R134). -/
def State.requestRelease (s : State) (m : Slot) : State :=
  match s.findWindow (s.argWide m 0 1) with
  | none => s.completeBare m .noWindow
  | some w =>
    if w.isOpen then s.completeBare m .notClosed
    else if w.pending.contains m then
      let p := s.releaseWindow m w.number
      p.1.complete m .ok ⟨loWord w.number, hiWord w.number, flagBit p.2 0⟩
    else s.completeBare m .notPending

/-! ### Operating states -/

/-- The current window at the moment START is taken (R118). While the boundary event of the present network µs waits,
START is taken first, and the window that ends there is still the current one: c is b - 1 (R118, R166). -/
def State.currentWindow (s : State) : Nat :=
  s.params.windowOf (if s.timebase.boundaryDue.isSome then s.timebase.us - 1 else s.timebase.us)

/-- The first window that START opens (R118): the larger of the current window and one above the highest held. -/
def State.firstWindow (s : State) : Nat := (s.held.map fun w => w.number + 1).foldl max s.currentWindow

/-- The constraint on L and H that START checks: ceil(H/L) + 4 is at most 64 (R165). -/
def Params.startable (p : Params) : Bool := decide (ceilDiv p.holdOpen p.windowLength + 4 ≤ 64)

/-- START (R165, R118). -/
def State.requestStart (s : State) (m : Slot) : State :=
  if s.part = .run then s.completeBare m .state
  else if !s.timebase.discipline.valid then s.completeBare m .state
  else if !s.params.startable then s.completeBare m .badConfig
  else
    (State.openWindow (State.openWindow { s with part := .run } s.firstWindow) (s.firstWindow + 1)).complete m .ok
      ⟨loWord s.firstWindow, hiWord s.firstWindow, 0⟩

/-- HALT (R167). -/
def State.requestHalt (s : State) (m : Slot) : State :=
  if s.part = .run then
    State.complete { s.flushAll with part := .setup } m .ok ⟨atBit s.openNumbers.length 0, 0, 0⟩
  else s.completeBare m .state

/-- The value of the parameter of a code (Table 11-4); none for a code that names no parameter. -/
def Params.value (p : Params) : Nat → Option Nat
  | 1 => some p.lockWindow
  | 2 => some p.gp
  | 3 => some p.gi
  | 4 => some p.hubGrowth
  | 5 => some p.scanBit
  | 6 => some p.silenceTimeout
  | 7 => some p.maxDelay
  | 8 => some p.minDriftSpan
  | 9 => some p.smoothing
  | 10 => some p.probeGrowth
  | 11 => some p.stepLimit
  | 12 => some p.satBase
  | 13 => some p.satGrowth
  | 14 => some p.staleLimit
  | 15 => some p.windowLength
  | 16 => some p.holdOpen
  | 17 => some p.tolerance
  | _ => none

/-- A value lies in the range of the parameter of a code (Table 10-3), with gp below the gi in force and gi above the gp
in force. -/
def Params.accepts (p : Params) (code v : Nat) : Bool :=
  match code with
  | 1 => decide (1 ≤ v) && decide (v ≤ 1000)
  | 2 => decide (v ≤ 7) && decide (v < p.gi)
  | 3 => decide (p.gp < v) && decide (v ≤ 12)
  | 4 => decide (v ≤ 65535)
  | 5 => decide (16 ≤ v) && decide (v ≤ 22)
  | 6 => decide (1 ≤ v) && decide (v ≤ 3600)
  | 7 => decide (1 ≤ v) && decide (v ≤ 1000000)
  | 8 => decide (10 ≤ v) && decide (v ≤ 3600)
  | 9 => decide (v ≤ 7)
  | 10 => decide (v ≤ 65535)
  | 11 => decide (1 ≤ v) && decide (v ≤ 1000000)
  | 12 => decide (v ≤ 65535)
  | 13 => decide (v ≤ 65535)
  | 14 => decide (1 ≤ v) && decide (v ≤ 32767)
  | 15 => [1, 2, 5, 10, 30, 60].contains v
  | 16 => decide (v ≤ 600)
  | 17 => decide (v ≤ 16777215)
  | _ => false

/-- The parameter of a code set to a value. -/
def Params.assign (p : Params) (code v : Nat) : Params :=
  match code with
  | 1 => { p with lockWindow := v }
  | 2 => { p with gp := v }
  | 3 => { p with gi := v }
  | 4 => { p with hubGrowth := v }
  | 5 => { p with scanBit := v }
  | 6 => { p with silenceTimeout := v }
  | 7 => { p with maxDelay := v }
  | 8 => { p with minDriftSpan := v }
  | 9 => { p with smoothing := v }
  | 10 => { p with probeGrowth := v }
  | 11 => { p with stepLimit := v }
  | 12 => { p with satBase := v }
  | 13 => { p with satGrowth := v }
  | 14 => { p with staleLimit := v }
  | 15 => { p with windowLength := v }
  | 16 => { p with holdOpen := v }
  | 17 => { p with tolerance := v }
  | _ => p

/-- The codes of L and H. -/
def isLengthCode (code : Nat) : Bool := code == 15 || code == 16

/-- SET PARAMETER (R168). -/
def State.requestSetParameter (s : State) (m : Slot) : State :=
  let code := s.argNat m 0
  let v := s.argNat m 1
  match s.params.value code with
  | none => s.complete m .badArg ⟨s.arg m 0, 0, 0⟩
  | some held =>
    if isLengthCode code && decide (s.part = .run) then s.complete m .state ⟨s.arg m 0, loWord held, 0⟩
    else if isLengthCode code && !s.held.isEmpty then s.complete m .busy ⟨s.arg m 0, loWord held, 0⟩
    else if s.params.accepts code v then
      State.complete { s with params := s.params.assign code v } m .ok ⟨s.arg m 0, loWord v, 0⟩
    else s.complete m .badArg ⟨s.arg m 0, loWord held, 0⟩

/-! ### CONTEXT RESET -/

/-- Slot m's SET TIME is in flight. -/
def State.setTimeInFlight (s : State) (m : Slot) : Bool := s.timebase.inFlight.any fun f => f.slot == m

/-- Stages 1 to 4 of R171 and the Reader Unit's part of stage 5: slot m's request slot, flags, intake, captures and
reader state as after full reset; the range entry stands until stage 6. -/
def Context.resetShares (c : Context) : Context := { Context.reset with range := c.range }

/-- Stage 7 of R171: a SET TIME of slot m in flight is cancelled (R7). -/
def State.cancelSetTime (s : State) (m : Slot) : State :=
  if s.setTimeInFlight m then s.withTimebase s.timebase.disarm else s

/-- CONTEXT RESET of slot m (R171, R172). -/
def State.resetContext (s : State) (m : Slot) : State :=
  let freed := (s.modCtx m Context.resetShares).releaseAll m
  let enabled := ((s.rangeStations m).filter fun n => (s.station n).state ≠ .disabled).length
  ((freed.1.disableRange m).cancelSetTime m).postResult m 18 .ok
    ⟨flagBit (s.setTimeInFlight m) 0, atBit enabled 0, atBit freed.2 0⟩

/-! ### The code word -/

/-- The request of a code (Table 11-3), or BAD_ARG at once for a code that names none (R158, R177). -/
def State.requestOf (s : State) (m : Slot) (value : Word) : State :=
  match value.toNat with
  | 1 => s.requestSetTime m
  | 2 => s.requestReacquire m
  | 3 => s.requestReadTime m
  | 4 => s.requestSetRange m
  | 5 => s.requestEnableStation m
  | 6 => s.requestDisableStation m
  | 7 => s.requestConfigureStation m
  | 8 => s.requestClearCounters m
  | 9 => s.requestIntakeReset m
  | 10 => s.requestSetThreshold m
  | 11 => s.requestEnrol m
  | 12 => s.requestWithdraw m
  | 13 => s.requestOpenCursor m
  | 14 => s.requestRelease m
  | 15 => s.requestStart m
  | 16 => s.requestHalt m
  | 17 => s.requestSetParameter m
  | 18 => s.resetContext m
  | _ => s.completeBare m .badArg

/-- Steps 1 and 2 of R158: the request number raised, wrapping, and the code recorded. -/
def State.noteCode (s : State) (m : Slot) (value : Word) : State :=
  s.modRequest m fun r => { r with number := r.number + 1, lastCode := BitVec.ofNat 8 value.toNat }

/-- A write of a value to slot m's code word, taken as a request by `act` while the slot is IDLE (R158) and answered
RETRY while it is IN FLIGHT (R160). -/
def State.takeRequest (s : State) (m : Slot) (value : Word) (act : State → State) : State :=
  if (s.ctx m).request.inFlight then s.answer .retry none
  else (act (s.noteCode m value)).answer .ok none

/-- A write of any value to slot m's code word (R158, R160, R177). -/
def State.writeCode (s : State) (m : Slot) (value : Word) : State :=
  s.takeRequest m value fun t => t.requestOf m value

end Sys2Proof.Machine
end

