-- ==== Sys2Proof/Machine/Bus.lean ====
section
/-! DEFINITION. The Shelf Bus Interface (Chapter 9): the window, the bus error record, what a write does at each word,
and a write transaction as a whole. -/

namespace Sys2Proof.Machine

/-- A word address lies in the 7320's window (R149). -/
def State.inWindow (s : State) (address : WordAddress) : Bool :=
  address.toNat / 16384 == s.straps.base.toNat

/-- The word offset of a word address inside the window (R149). -/
def offsetOf (address : WordAddress) : Nat := address.toNat % 16384

/-- A parity failure recorded (R155): the first failure of an EMPTY record, one more of a HOLDING one. -/
def State.recordBusError (s : State) (kind : ParityKind) (address : WordAddress) (m : Slot) (d : Direction) : State :=
  { s with
    busError :=
      match s.busError with
      | some b => some { b with count := raise16 b.count }
      | none => some ⟨kind, address, m, d, 1⟩ }

/-- The address parity check (R149, R151): outside the window nothing is answered, checked or recorded; inside it a
failure is not acknowledged and is recorded. A phase that passes is no failure (log 22). -/
def State.checkAddress (s : State) (address : WordAddress) (m : Slot) (d : Direction) (parity : Bool) : State :=
  if s.inWindow address then
    if addressParityOk address m d parity then s
    else (s.recordBusError .address address m d).answer .noAck none
  else s.answer .noAck none

/-- The flags written as ones in a value, or the enables (11 section 11.7): bits 5 to 0. -/
def sixBits (v : Word) : BitVec 6 := v.setWidth 6

/-- A write to the flags word (R143). -/
def State.writeFlags (s : State) (m : Slot) (v : Word) : State := s.modAttention m fun a => a.clearOnes (sixBits v)

/-- A write to the enable mask word (R141). -/
def State.writeEnables (s : State) (m : Slot) (v : Word) : State :=
  s.modAttention m fun a => { a with enables := sixBits v }

/-- A write to the pop word (R127). -/
def State.clearOverflow (s : State) (m : Slot) : State := s.modReader m fun r => { r with overflow := false }

/-- A write to argument word k + 1 (R157). -/
def State.storeArg (s : State) (m : Slot) (k : Fin 7) (v : Word) : State :=
  s.modRequest m fun r => { r with args := r.args.set k v }

/-- A write with good parity to a word offset (R149, R154, Table 11-12), with its response: the owning block acts on it;
a word that is read-only, and an offset that decodes to no word, ignore it with OK. -/
def State.writeWord (s : State) (offset : Nat) (m : Slot) (v : Word) : State :=
  if offset = 6 then State.answer { s with busError := none } .ok none
  else if h : 8192 ≤ offset ∧ offset < 8192 + 7 then
    (s.storeStaging m ⟨offset - 8192, by omega⟩ v).answer .ok none
  else if offset = 8192 + 7 then s.commitWord m v
  else if offset = 8192 + 16 then s.writeCode m v
  else if h : 8192 + 17 ≤ offset ∧ offset ≤ 8192 + 23 then
    (s.storeArg m ⟨offset - (8192 + 17), by omega⟩ v).answer .ok none
  else if offset = 8192 + 28 then (s.resetContext m).answer .ok none
  else if offset = 8192 + 48 then (s.clearOverflow m).answer .ok none
  else if offset = 8192 + 51 then (s.moveCursor m v.toNat).answer .ok none
  else if offset = 8192 + 64 then (s.writeFlags m v).answer .ok none
  else if offset = 8192 + 65 then (s.writeEnables m v).answer .ok none
  else s.answer .ok none

/-- A write transaction whose address parity passes (R149, R152): not answered outside the window, discarded with
DATA_ERR and recorded when a byte lane fails, and otherwise decoded. -/
def State.writeTransaction (s : State) (address : WordAddress) (m : Slot) (v : Word) (lanes : BitVec 4) : State :=
  if s.inWindow address then
    if lanesOk v lanes then s.writeWord (offsetOf address) m v
    else (s.recordBusError .data address m .write).answer .dataErr none
  else s.answer .noAck none

end Sys2Proof.Machine
end

