-- ==== Sys2Proof/Machine/Map.lean ====
section
/-! DEFINITION. What a read of each word of the window returns (Table 11-12 and the tables it names). Reads of these
words change nothing (R149); the three whose reads have effects, the pop word, the POLL word and the cursor data port,
are commands of their own, and the words given for them here are what such a read would return at this moment. -/

namespace Sys2Proof.Machine

/-- The code of an edge as a strap word shows it (Table 11-12). -/
def edgeBit : Edge → Bool
  | .rising => false
  | .falling => true

/-- The straps word (R156). -/
def State.strapsWord (s : State) : Word :=
  atBit s.straps.base.toNat 0 ||| flagBit (edgeBit s.straps.refEdge) 8 ||| flagBit (edgeBit s.straps.captureEdge) 9

/-- Bus error record 0 (R155). -/
def State.busErrorWord0 (s : State) : Word :=
  match s.busError with
  | none => 0
  | some b =>
    flagBit true 31 ||| flagBit (b.kind == .data) 30 ||| flagBit (b.direction == .write) 29 ||| atBit b.slot.val 24
      ||| atBit b.count 0

/-- Bus error record 1 (R155). -/
def State.busErrorWord1 (s : State) : Word :=
  match s.busError with
  | none => 0
  | some b => atBit b.address.toNat 0

/-- Timebase word 0 (R17); its slot bits are a free value while no SET TIME is in flight (log 12). -/
def State.timebaseWord0 (s : State) : Word :=
  atBit s.timebase.discipline.code 0 ||| flagBit s.timebase.inFlight.isSome 8
    ||| atBit ((s.timebase.inFlight.map SetTimeInFlight.slot).getD Config.idleSetTimeSlot).val 9
    ||| atBit s.timebase.badRun 16 ||| atBit s.timebase.goodRun 20

/-- The window slots word (R121). -/
def State.windowSlotsWord (s : State) : Word :=
  atBit (64 - s.held.length) 0 ||| atBit s.openNumbers.length 8 ||| atBit s.closedNumbers.length 16
    ||| flagBit (!s.held.isEmpty) 31

/-- The lowest window number held, 0 with none held (R121). -/
def State.lowestHeld (s : State) : Nat := (s.numbersWhere fun _ => true).headD 0

/-- The highest window number held, 0 with none held (R121). -/
def State.highestHeld (s : State) : Nat := (s.numbersWhere fun _ => true).getLastD 0

/-- The words of the common page (Table 11-12). -/
def State.commonWord (s : State) (offset : Nat) : Word :=
  match offset with
  | 0 => 0x4F1C9801#32
  | 1 => s.strapsWord
  | 2 => flagBit (s.part == .run) 0
  | 4 => s.busErrorWord0
  | 5 => s.busErrorWord1
  | 16 => s.timebaseWord0
  | 17 => loWordInt s.timebase.freqPart
  | 18 => loWordInt s.timebase.phasePart
  | 19 => loWordInt s.timebase.trim
  | 20 => loWordInt s.timebase.lastError
  | 21 => hiWordInt s.timebase.lastError
  | 22 => loWord s.timebase.holdoverStart
  | 23 => hiWord s.timebase.holdoverStart
  | 24 => loWord s.timebase.slewRemainder
  | 25 => hiWord s.timebase.slewRemainder
  | 26 => atBit s.timebase.pulsesTaken 0 ||| atBit s.timebase.outOfWindow 16
  | 27 => atBit s.timebase.missingPulses 0
  | 32 => s.windowSlotsWord
  | 33 => atBit s.freeFragments 0
  | 34 => loWord s.lowestHeld
  | 35 => hiWord s.lowestHeld
  | 36 => loWord s.highestHeld
  | 37 => hiWord s.highestHeld
  | _ => if 48 ≤ offset then ((s.params.value (offset - 47)).map loWord).getD 0 else 0

/-- The code of a status (Table 11-4). -/
def Status.code : Status → Nat
  | .none => 0
  | .ok => 1
  | .pending => 2
  | .timeout => 3
  | .state => 4
  | .busy => 5
  | .badArg => 6
  | .notOwner => 7
  | .overlap => 8
  | .badConfig => 9
  | .noWindow => 10
  | .notClosed => 11
  | .notPending => 12

/-- The code of a refusal in the last-refusal record (Table 11-6). -/
def RefusalCode.code : RefusalCode → Nat
  | .malformed => 1
  | .state => 2
  | .notOwner => 3
  | .disabled => 4
  | .rate => 5
  | .count => 6
  | .staleCapture => 7
  | .noModel => 8
  | .outOfRange => 9
  | .span => 10
  | .future => 11
  | .duplicate => 12
  | .staleSeq => 13
  | .poolFull => 14
  | .mode => 15
  | .badProbe => 16
  | .probeDelay => 17

/-- The code of a record kind (Table 11-7). -/
def RecordKind.code : RecordKind → Nat
  | .block => 1
  | .probe => 2

/-- The request code word (R161, Table 11-5). -/
def RequestSlot.codeWord (r : RequestSlot) : Word :=
  flagBit r.inFlight 31 ||| atBit r.number.toNat 8 ||| atBit r.lastCode.toNat 0

/-- Result word 0 (Table 11-5). -/
def Result.word0 (r : Result) : Word :=
  atBit r.status.code 16 ||| atBit r.number.toNat 8 ||| atBit r.code.toNat 0

/-- Intake status word 0 (R94, Table 11-7). -/
def Intake.statusWord (i : Intake) : Word :=
  atBit i.queue.length 0 ||| flagBit i.hold 8 ||| flagBit i.stopped 9 ||| atBit i.threshold 16

/-- The four last refusal words (R96, Table 11-7). -/
def Intake.refusalWord (i : Intake) (k : Nat) : Word :=
  match i.lastRefusal with
  | none => 0
  | some (.malformed w0 w1 w2) =>
    match k with
    | 0 => atBit RefusalCode.malformed.code 0
    | 1 => w0
    | 2 => w1
    | _ => w2
  | some (.refused code kind station tag) =>
    match k with
    | 0 => atBit code.code 0 ||| atBit kind.code 8 ||| atBit station 16
    | 1 => tag
    | _ => 0

/-- The two capture peek words: the newest entry of the ring, 0 with none (R46, R178). -/
def Capture.peekWord (c : Capture) (k : Nat) : Word :=
  match c.ring.getLast? with
  | none => 0
  | some e => if k = 0 then flagBit true 31 ||| atBit e.seq 23 ||| atBit (e.us / 2 ^ 32 % 2 ^ 23) 0 else loWord e.us

/-- The code of a cursor condition (Table 11-12). -/
def CursorCondition.code : CursorCondition → Nat
  | .none => 0
  | .reading => 1
  | .atEnd => 2
  | .gone => 3

/-- The code of a cursor's target kind (Table 11-4; 0 none). -/
def CursorTarget.kindCode : CursorTarget → Nat
  | .none => 0
  | .window _ => 1
  | .station _ => 2

/-- The number of a cursor's target (R136). -/
def CursorTarget.number : CursorTarget → Nat
  | .none => 0
  | .window n => n
  | .station n => n.val

/-- The length that the reader status shows (R136); a free value for a cursor that is GONE (log 11). -/
def State.cursorLengthWord (s : State) (c : Cursor) : Word :=
  match c.condition with
  | .none => 0
  | .gone => Config.goneCursorLength c.target.number c.position
  | .reading | .atEnd => loWord ((s.targetLength c.target).getD 0)

/-- Reader status word 0 (R136, Table 11-12). -/
def Reader.statusWord (r : Reader) : Word :=
  flagBit r.enrolled 31 ||| atBit r.notices.length 0 ||| flagBit r.overflow 4 ||| atBit r.cursor.condition.code 8
    ||| atBit r.cursor.target.kindCode 12

/-- A last missed window word (R136); a free value while none is held (log 13). -/
def Reader.missedWord (r : Reader) (m : Slot) (k : Nat) : Word :=
  match r.lastMissed with
  | some n => if k = 0 then loWord n else hiWord n
  | none => Config.absentMissedWindow m k

/-- The POLL word that a POLL read returns (R144): the code of the cause reported, and the flags as they stand after the
read. -/
def Attention.pollWord (a : Attention) : Word :=
  atBit (match a.reported with | some c => c.code | none => 0) 8 ||| atBit a.polled.pending.toNat 0

/-- The words of slot m's banked page, by relative offset (Table 11-12). -/
def State.bankedWord (s : State) (m : Slot) (k : Nat) : Word :=
  let c := s.ctx m
  match k with
  | 16 => c.request.codeWord
  | 24 => c.request.result.word0
  | 25 => c.request.result.values.v1
  | 26 => c.request.result.values.v2
  | 27 => c.request.result.values.v3
  | 32 => c.intake.statusWord
  | 33 => atBit c.intake.accepted 0 ||| atBit c.intake.partLate 16
  | 34 => atBit c.intake.late 0 ||| atBit c.intake.refused 16
  | 35 => atBit c.intake.probesAccepted 0
  | 36 => c.intake.refusalWord 0
  | 37 => c.intake.refusalWord 1
  | 38 => c.intake.refusalWord 2
  | 39 => c.intake.refusalWord 3
  | 40 => c.capture.peekWord 0
  | 41 => c.capture.peekWord 1
  | 48 => (s.popNotice m).2
  | 49 => latchWord1 c.reader.latch
  | 50 => latchWord2 c.reader.latch
  | 51 => (s.readCursor m).2
  | 56 => c.reader.statusWord
  | 57 => loWord c.reader.cursor.target.number
  | 58 => hiWord c.reader.cursor.target.number
  | 59 => loWord c.reader.cursor.position
  | 60 => s.cursorLengthWord c.reader.cursor
  | 61 => atBit c.reader.missed 0 ||| flagBit c.reader.lastMissed.isSome 31
  | 62 => c.reader.missedWord m 0
  | 63 => c.reader.missedWord m 1
  | 64 => atBit c.attention.pending.toNat 0
  | 65 => atBit c.attention.enables.toNat 0
  | 66 => c.attention.pollWord
  | _ =>
    if k < 8 then c.intake.staging.toList.getD k 0
    else if 17 ≤ k ∧ k ≤ 23 then c.request.args.toList.getD (k - 17) 0
    else 0

/-- The word that a read at a window offset returns to slot m (R149, R150). -/
def State.readWord (s : State) (offset : Nat) (m : Slot) : Word :=
  if offset < 8192 then s.commonWord offset else s.bankedWord m (offset - 8192)

end Sys2Proof.Machine
end

