-- ==== Sys2Proof/Machine/BusCommands.lean ====
section
/-! DEFINITION. The commands that are shelf bus transactions other than requests. While the part is held in full reset
no transaction is acknowledged and none is taken (R163). -/

namespace Sys2Proof.Machine

/-- ADDRESS_PARITY_ERROR (R151). -/
def execAddressParityError (address : AddressLines) (m : Slot) (d : Direction) (s : State) :
    Host.Outcome State Fault Refusal :=
  .next (s.onBus fun s => s.checkAddress address.word m d address.parity)

/-- REGISTER_WRITE (R149, R152). -/
def execRegisterWrite (address : WordAddress) (m : Slot) (value : Word) (lanes : BitVec 4) (s : State) :
    Host.Outcome State Fault Refusal :=
  .next (s.onBus fun s => s.writeTransaction address m value lanes)

/-- BUS_ERROR_CLEAR (R155). -/
def execBusErrorClear (_m : Slot) (_value : Word) (s : State) : Host.Outcome State Fault Refusal :=
  .next (s.onBus fun s => State.answer { s with busError := none } .ok none)

/-- COMMIT (R79, R81, R154). -/
def execCommit (m : Slot) (value : Word) (s : State) : Host.Outcome State Fault Refusal :=
  .next (s.onBus fun s => s.commitWord m value)

/-- NOTICE_POP (R126). -/
def execNoticePop (m : Slot) (s : State) : Host.Outcome State Fault Refusal :=
  .next (s.onBus fun s => State.answerRead (s.popNotice m))

/-- OVERFLOW_CLEAR (R127). -/
def execOverflowClear (m : Slot) (_value : Word) (s : State) : Host.Outcome State Fault Refusal :=
  .next (s.onBus fun s => (s.clearOverflow m).answer .ok none)

/-- CURSOR_READ (R132). -/
def execCursorRead (m : Slot) (s : State) : Host.Outcome State Fault Refusal :=
  .next (s.onBus fun s => State.answerRead (s.readCursor m))

/-- CURSOR_POSITION_WRITE (R133). -/
def execCursorPositionWrite (m : Slot) (value : Word) (s : State) : Host.Outcome State Fault Refusal :=
  .next (s.onBus fun s => (s.moveCursor m value.toNat).answer .ok none)

/-- FLAGS_WORD_WRITE (R143). -/
def execFlagsWordWrite (m : Slot) (value : Word) (s : State) : Host.Outcome State Fault Refusal :=
  .next (s.onBus fun s => (s.writeFlags m value).answer .ok none)

/-- ENABLE_MASK_WRITE (R141). -/
def execEnableMaskWrite (m : Slot) (value : Word) (s : State) : Host.Outcome State Fault Refusal :=
  .next (s.onBus fun s => (s.writeEnables m value).answer .ok none)

/-- POLL_READ (R144). -/
def execPollRead (m : Slot) (s : State) : Host.Outcome State Fault Refusal :=
  .next (s.onBus fun s =>
    State.answerRead (s.modAttention m Attention.polled, (s.ctx m).attention.pollWord))

/-- UNKNOWN_REQUEST_CODE (R158, R177). -/
def execUnknownRequestCode (m : Slot) (value : Word) (s : State) : Host.Outcome State Fault Refusal :=
  .next (s.onBus fun s => s.writeCode m value)

/-- REQUEST_SLOT_RETRY (R160). -/
def execRequestSlotRetry (m : Slot) (value : Word) (s : State) : Host.Outcome State Fault Refusal :=
  .next (s.onBus fun s => s.writeCode m value)

end Sys2Proof.Machine
end

