-- ==== Sys2Proof/Machine/RequestCommands.lean ====
section
/-! DEFINITION. The commands that are requests: a write of the request's code, with good parity, to slot m's code word.
While the slot is IN FLIGHT the write is answered RETRY (R160); while the part is held in full reset it is not
acknowledged (R163). -/

namespace Sys2Proof.Machine

/-- A write of a request's code to slot m's code word, with the request's own action. -/
def State.onRequest (s : State) (m : Slot) (code : Word) (act : State → State) : State :=
  s.onBus fun s => s.takeRequest m code act

/-- SET_TIME (R4), code 1. -/
def execSetTime (m : Slot) (s : State) : Host.Outcome State Fault Refusal :=
  .next (s.onRequest m 1 fun s => s.requestSetTime m)

/-- REACQUIRE (R12), code 2. -/
def execReacquire (m : Slot) (s : State) : Host.Outcome State Fault Refusal :=
  .next (s.onRequest m 2 fun s => s.requestReacquire m)

/-- READ_TIME (R16), code 3. -/
def execReadTime (m : Slot) (s : State) : Host.Outcome State Fault Refusal :=
  .next (s.onRequest m 3 fun s => s.requestReadTime m)

/-- SET_RANGE (R25), code 4. -/
def execSetRange (m : Slot) (s : State) : Host.Outcome State Fault Refusal :=
  .next (s.onRequest m 4 fun s => s.requestSetRange m)

/-- ENABLE_STATION (R26, R27), code 5. -/
def execEnableStation (m : Slot) (s : State) : Host.Outcome State Fault Refusal :=
  .next (s.onRequest m 5 fun s => s.requestEnableStation m)

/-- DISABLE_STATION (R26, R28), code 6. -/
def execDisableStation (m : Slot) (s : State) : Host.Outcome State Fault Refusal :=
  .next (s.onRequest m 6 fun s => s.requestDisableStation m)

/-- CONFIGURE_STATION (R26, R29, R30), code 7. -/
def execConfigureStation (m : Slot) (s : State) : Host.Outcome State Fault Refusal :=
  .next (s.onRequest m 7 fun s => s.requestConfigureStation m)

/-- CLEAR_COUNTERS (R26, R41), code 8. -/
def execClearCounters (m : Slot) (s : State) : Host.Outcome State Fault Refusal :=
  .next (s.onRequest m 8 fun s => s.requestClearCounters m)

/-- INTAKE_RESET (R86), code 9. -/
def execIntakeReset (m : Slot) (s : State) : Host.Outcome State Fault Refusal :=
  .next (s.onRequest m 9 fun s => s.requestIntakeReset m)

/-- SET_THRESHOLD (R82), code 10. -/
def execSetThreshold (m : Slot) (s : State) : Host.Outcome State Fault Refusal :=
  .next (s.onRequest m 10 fun s => s.requestSetThreshold m)

/-- ENROL (R123), code 11. -/
def execEnrol (m : Slot) (s : State) : Host.Outcome State Fault Refusal :=
  .next (s.onRequest m 11 fun s => s.requestEnrol m)

/-- WITHDRAW (R124), code 12. -/
def execWithdraw (m : Slot) (s : State) : Host.Outcome State Fault Refusal :=
  .next (s.onRequest m 12 fun s => s.requestWithdraw m)

/-- OPEN_CURSOR (R128 to R130), code 13. -/
def execOpenCursor (m : Slot) (s : State) : Host.Outcome State Fault Refusal :=
  .next (s.onRequest m 13 fun s => s.requestOpenCursor m)

/-- RELEASE (R134), code 14. -/
def execRelease (m : Slot) (s : State) : Host.Outcome State Fault Refusal :=
  .next (s.onRequest m 14 fun s => s.requestRelease m)

/-- START (R165), code 15. -/
def execStart (m : Slot) (s : State) : Host.Outcome State Fault Refusal :=
  .next (s.onRequest m 15 fun s => s.requestStart m)

/-- HALT (R167), code 16. -/
def execHalt (m : Slot) (s : State) : Host.Outcome State Fault Refusal :=
  .next (s.onRequest m 16 fun s => s.requestHalt m)

/-- SET_PARAMETER (R168), code 17. -/
def execSetParameter (m : Slot) (s : State) : Host.Outcome State Fault Refusal :=
  .next (s.onRequest m 17 fun s => s.requestSetParameter m)

/-- CONTEXT_RESET (R170, R171): by its code, 18, or by a write of any value to the context reset word, which is taken
whether the request slot is IDLE or IN FLIGHT. -/
def execContextReset (m : Slot) (way : ContextResetWay) (s : State) : Host.Outcome State Fault Refusal :=
  match way with
  | .codeWord => .next (s.onRequest m 18 fun s => s.resetContext m)
  | .resetWord _ => .next (s.onBus fun s => (s.resetContext m).answer .ok none)

end Sys2Proof.Machine
end

