-- ==== Sys2Proof/Machine/TimeCommands.lean ====
section
/-! DEFINITION. The commands that are events: the oscillator, the reference pulse, the events of network time, captures,
the taking of a record, and the two ends of a full reset. None is taken while the part is held in full reset (R173),
the resets apart. -/

namespace Sys2Proof.Machine

/-- OSCILLATOR_CYCLE (R1, R2, R13, R18 to R20). -/
def execOscillatorCycle (s : State) : Host.Outcome State Fault Refusal := .next (s.onEvent State.takeCycle)

/-- SLEW_REMAINDER_END (R13). -/
def execSlewRemainderEnd (s : State) : Host.Outcome State Fault Refusal := .next (s.onEvent State.takeSlewEnd)

/-- REF_PULSE (R3, R5, R8, R9, R11, R13): an edge of the kind the latched strap selects is a pulse; another is not. -/
def execRefPulse (edge : Edge) (s : State) : Host.Outcome State Fault Refusal :=
  .next (s.onEvent fun s => if edge = s.straps.refEdge then s.takePulse else s)

/-- ARMED_EXPIRY (R6). -/
def execArmedExpiry (s : State) : Host.Outcome State Fault Refusal := .next (s.onEvent State.takeArmedExpiry)

/-- MISSING_PULSE_EVENT (R10). -/
def execMissingPulseEvent (s : State) : Host.Outcome State Fault Refusal := .next (s.onEvent State.takeMissingPulse)

/-- BOUNDARY_EVENT (R18, R32, R112). -/
def execBoundaryEvent (s : State) : Host.Outcome State Fault Refusal := .next (s.onEvent State.takeBoundary)

/-- EXPIRY_EVENT (R19, R113). -/
def execExpiryEvent (s : State) : Host.Outcome State Fault Refusal := .next (s.onEvent State.takeExpiry)

/-- SCAN_EVENT (R20, R36). -/
def execScanEvent (s : State) : Host.Outcome State Fault Refusal := .next (s.onEvent State.takeScan)

/-- CAPTURE_PULSE (R44): an edge of the kind the latched strap selects. -/
def execCapturePulse (m : Slot) (edge : Edge) (s : State) : Host.Outcome State Fault Refusal :=
  .next (s.onEvent fun s => if edge = s.straps.captureEdge then s.takeCapture m else s)

/-- RECORD_TAKING (R83). -/
def execRecordTaking (s : State) : Host.Outcome State Fault Refusal := .next (s.onEvent State.takeRecord)

/-- One reset line set to asserted or negated. -/
def State.setResetLine (s : State) (line : ResetLine) (asserted : Bool) : State :=
  match line with
  | .resetInput => { s with resetPin := asserted }
  | .shelfBus => { s with busReset := asserted }

/-- FULL_RESET (R173): a reset line is asserted, and every block holds its full-reset values. The latched straps stand
until the reset ends. -/
def execFullReset (line : ResetLine) (s : State) : Host.Outcome State Fault Refusal :=
  .next ((State.fullResetValues s.straps s.resetPin s.busReset s.pending).setResetLine line true)

/-- FULL_RESET_END (R174): a reset line is negated; when the part was held in full reset and neither line is asserted
any more, the straps are latched and the part begins taking events. -/
def execFullResetEnd (line : ResetLine) (straps : Straps) (s : State) : Host.Outcome State Fault Refusal :=
  let s1 := s.setResetLine line false
  .next (if s.inReset && !s1.inReset then { s1 with straps := straps } else s1)

end Sys2Proof.Machine
end

