-- ==== Sys2Proof/Machine/Dispatch.lean ====
section
/-! DEFINITION. exec: one arm per command, each one call of its meaning. -/

namespace Sys2Proof.Machine

def exec (i : Instr) (s : State) : Host.Outcome State Fault Refusal :=
  match i with
  | .oscillatorCycle => Sys2Proof.Machine.execOscillatorCycle s
  | .slewRemainderEnd => Sys2Proof.Machine.execSlewRemainderEnd s
  | .refPulse edge => Sys2Proof.Machine.execRefPulse edge s
  | .armedExpiry => Sys2Proof.Machine.execArmedExpiry s
  | .missingPulseEvent => Sys2Proof.Machine.execMissingPulseEvent s
  | .boundaryEvent => Sys2Proof.Machine.execBoundaryEvent s
  | .expiryEvent => Sys2Proof.Machine.execExpiryEvent s
  | .scanEvent => Sys2Proof.Machine.execScanEvent s
  | .capturePulse m edge => Sys2Proof.Machine.execCapturePulse m edge s
  | .fullReset line => Sys2Proof.Machine.execFullReset line s
  | .fullResetEnd line straps => Sys2Proof.Machine.execFullResetEnd line straps s
  | .addressParityError address m direction => Sys2Proof.Machine.execAddressParityError address m direction s
  | .registerWrite address m value lanes => Sys2Proof.Machine.execRegisterWrite address m value lanes s
  | .busErrorClear m value => Sys2Proof.Machine.execBusErrorClear m value s
  | .commit m value => Sys2Proof.Machine.execCommit m value s
  | .recordTaking => Sys2Proof.Machine.execRecordTaking s
  | .noticePop m => Sys2Proof.Machine.execNoticePop m s
  | .overflowClear m value => Sys2Proof.Machine.execOverflowClear m value s
  | .cursorRead m => Sys2Proof.Machine.execCursorRead m s
  | .cursorPositionWrite m value => Sys2Proof.Machine.execCursorPositionWrite m value s
  | .flagsWordWrite m value => Sys2Proof.Machine.execFlagsWordWrite m value s
  | .enableMaskWrite m value => Sys2Proof.Machine.execEnableMaskWrite m value s
  | .pollRead m => Sys2Proof.Machine.execPollRead m s
  | .setTime m => Sys2Proof.Machine.execSetTime m s
  | .reacquire m => Sys2Proof.Machine.execReacquire m s
  | .readTime m => Sys2Proof.Machine.execReadTime m s
  | .setRange m => Sys2Proof.Machine.execSetRange m s
  | .enableStation m => Sys2Proof.Machine.execEnableStation m s
  | .disableStation m => Sys2Proof.Machine.execDisableStation m s
  | .configureStation m => Sys2Proof.Machine.execConfigureStation m s
  | .clearCounters m => Sys2Proof.Machine.execClearCounters m s
  | .intakeReset m => Sys2Proof.Machine.execIntakeReset m s
  | .setThreshold m => Sys2Proof.Machine.execSetThreshold m s
  | .enrol m => Sys2Proof.Machine.execEnrol m s
  | .withdraw m => Sys2Proof.Machine.execWithdraw m s
  | .openCursor m => Sys2Proof.Machine.execOpenCursor m s
  | .release m => Sys2Proof.Machine.execRelease m s
  | .start m => Sys2Proof.Machine.execStart m s
  | .halt m => Sys2Proof.Machine.execHalt m s
  | .setParameter m => Sys2Proof.Machine.execSetParameter m s
  | .contextReset m way => Sys2Proof.Machine.execContextReset m way s
  | .unknownRequestCode m value => Sys2Proof.Machine.execUnknownRequestCode m value s
  | .requestSlotRetry m value => Sys2Proof.Machine.execRequestSlotRetry m value s

end Sys2Proof.Machine
end

