-- ==== Sys2Proof/Safety.lean ====
section
/-! DEFINITION. What counts as a good state of the 7320, in the terms that statements use: the ranges and agreements the
spec says hold at all times, when a request is taken, what a completed request leaves, and who sends a command. -/

namespace Sys2Proof.Machine

/-! ### Good states -/

/-- Every parameter lies in its range, with gp below gi (Table 10-3, R168). -/
abbrev Params.Good (p : Params) : Prop :=
  (1 ≤ p.lockWindow ∧ p.lockWindow ≤ 1000) ∧ p.gp ≤ 7 ∧ (p.gp < p.gi ∧ p.gi ≤ 12) ∧ p.hubGrowth ≤ 65535
    ∧ (16 ≤ p.scanBit ∧ p.scanBit ≤ 22) ∧ (1 ≤ p.silenceTimeout ∧ p.silenceTimeout ≤ 3600)
    ∧ (1 ≤ p.maxDelay ∧ p.maxDelay ≤ 1000000) ∧ (10 ≤ p.minDriftSpan ∧ p.minDriftSpan ≤ 3600) ∧ p.smoothing ≤ 7
    ∧ p.probeGrowth ≤ 65535 ∧ (1 ≤ p.stepLimit ∧ p.stepLimit ≤ 1000000) ∧ p.satBase ≤ 65535 ∧ p.satGrowth ≤ 65535
    ∧ (1 ≤ p.staleLimit ∧ p.staleLimit ≤ 32767) ∧ p.windowLength ∈ [1, 2, 5, 10, 30, 60] ∧ p.holdOpen ≤ 600
    ∧ p.tolerance ≤ 16777215

/-- The Timebase's values lie in their ranges (R1, R2, R3, 01 section 1.3): P is 0 in HOLDOVER, there is a slew remainder
in SLEWING alone, a deadline exactly when network time is valid (Table 1-1), and a SET TIME in flight exactly in ARMED
(R4 to R7). -/
abbrev Timebase.Good (t : Timebase) : Prop :=
  t.us ≤ maxUs ∧ t.frac < usUnits ∧ (-262144 ≤ t.freqPart ∧ t.freqPart ≤ 262144)
    ∧ (-524288 ≤ t.phasePart ∧ t.phasePart ≤ 524288) ∧ t.badRun ≤ 2 ∧ t.goodRun ≤ 3
    ∧ (t.pulsesTaken ≤ 65535 ∧ t.outOfWindow ≤ 65535 ∧ t.missingPulses ≤ 65535)
    ∧ (t.discipline = .holdover → t.phasePart = 0) ∧ (t.discipline ≠ .slewing → t.slewRemainder = 0)
    ∧ t.deadline.isSome = t.discipline.valid ∧ t.inFlight.isSome = decide (t.discipline = .armed)
    ∧ (∀ f ∈ t.inFlight, f.second ≤ maxSecond)

/-- A request slot is IN FLIGHT exactly when the SET TIME in flight is its own (R4, R159, R160). -/
abbrev State.FlightsAgree (s : State) : Prop :=
  ∀ m : Slot, (s.ctx m).request.inFlight = s.setTimeInFlight m

/-- The timing of the part is good: parameters, Timebase and request slots. -/
abbrev State.TimingGood (s : State) : Prop := s.params.Good ∧ s.timebase.Good ∧ s.FlightsAgree

/-- An intake's queue, HOLD and threshold (R80, R81, R82, R85), and its saturating counters (R94). -/
abbrev Intake.Good (i : Intake) : Prop :=
  i.queue.length ≤ 16 ∧ (i.hold = true → i.queue ≠ []) ∧ i.threshold ∈ [4, 8, 12, 15]
    ∧ (i.stopped = true → i.queue ≠ []) ∧ i.accepted ≤ 65535 ∧ i.partLate ≤ 65535 ∧ i.late ≤ 65535
    ∧ i.refused ≤ 65535 ∧ i.probesAccepted ≤ 65535

/-- Every slot's intake and capture ring are good (R45: at most 8 entries). -/
abbrev State.IntakesGood (s : State) : Prop :=
  ∀ m : Slot, (s.ctx m).intake.Good ∧ (s.ctx m).capture.ring.length ≤ 8 ∧ (s.ctx m).capture.nextSeq ≤ 255

/-- CLOSED is pending at a slot exactly while its notice queue, of at most 8, holds a notice (R125, R140). -/
abbrev State.NoticesGood (s : State) : Prop :=
  ∀ m : Slot, (s.ctx m).reader.notices.length ≤ 8
    ∧ ((s.ctx m).attention.pending.getLsbD 3 = true ↔ (s.ctx m).reader.notices ≠ [])

/-- A window's sets hold each member once, its fragment list stands in the order of R108, and it owes nobody while it is
OPEN (R101). -/
abbrev Window.Good (w : Window) : Prop :=
  w.expected.Pairwise (· < ·) ∧ w.covered.Pairwise (· < ·) ∧ w.pending.Pairwise (· < ·)
    ∧ w.fragments.Pairwise (fun a b => a.before b = true) ∧ (w.isOpen = true → w.pending = [])

/-- The ring of windows (R101, R102, R112): no two windows carry one number, the fragments in use fit the pool, every
window is good, and no window is OPEN in SETUP. -/
abbrev State.RingGood (s : State) : Prop :=
  (s.held.map Window.number).Nodup ∧ s.usedFragments ≤ 4096 ∧ (∀ w ∈ s.held, w.Good)
    ∧ (s.part = .setup → ∀ w ∈ s.held, w.isOpen = false)

/-- A valid range entry: a power of two up to 128 stations, aligned to its size (R24). -/
abbrev Range.Good (r : Range) : Prop :=
  r.size ∈ [1, 2, 4, 8, 16, 32, 64, 128] ∧ r.base % r.size = 0 ∧ r.base + r.size ≤ 128

/-- The range table (R24): entries valid in form, no station in two of them, and every station that is not DISABLED in
one. -/
abbrev State.RangesGood (s : State) : Prop :=
  (∀ m : Slot, ∀ r ∈ (s.ctx m).range, r.Good)
    ∧ (∀ m k : Slot, ∀ n : StationNo, s.owns m n = true → s.owns k n = true → m = k)
    ∧ (∀ n : StationNo, (s.station n).state ≠ .disabled → ∃ m : Slot, s.owns m n = true)

/-- A configuration lies in its ranges (R22, R29). -/
abbrev StationConfig.Good (c : StationConfig) : Prop :=
  c.rateCode ≤ 9 ∧ (-500000 ≤ c.fixedDelay ∧ c.fixedDelay ≤ 500000) ∧ c.linkLatency ≤ 10000000
    ∧ c.jitterBound ≤ 16777215

/-- The seen-set holds each number once, each at a distance of 1 to 32 behind the last sequence (R38). -/
abbrev SequenceState.Good (q : SequenceState) : Prop :=
  q.last ≤ 65535 ∧ q.seen.Nodup ∧ ∀ x ∈ q.seen, x ≤ 65535 ∧ 1 ≤ behind q.last x ∧ behind q.last x ≤ 32

/-- The counters of a station stay within 16 bits (R41). -/
abbrev StationCounters.Good (c : StationCounters) : Prop :=
  c.blocksAccepted ≤ 65535 ∧ c.fragmentsLate ≤ 65535 ∧ c.duplicates ≤ 65535 ∧ c.sequenceGaps ≤ 65535
    ∧ c.refusals ≤ 65535 ∧ c.probesAccepted ≤ 65535 ∧ c.probesRefused ≤ 65535 ∧ c.steps ≤ 65535

/-- The parts of a record that come and go (R23, R28, R53, R55, R57, R60): a DISABLED station has no pending
configuration, only a PROBED station has a model, a model comes with an anchor and a history, and every drift lies within
±200,000 ppb. -/
abbrev Station.ModelsGood (r : Station) : Prop :=
  (r.state = .disabled → r.pendingConfig = none)
    ∧ (r.config.mode ≠ .probed → r.active = none)
    ∧ (r.active = none → r.staged = none ∧ r.anchor = none ∧ r.history = [])
    ∧ (r.active ≠ none → r.anchor ≠ none ∧ r.history ≠ [])
    ∧ r.history.length ≤ 8
    ∧ (∀ a ∈ r.active, (-200000 ≤ a.drift ∧ a.drift ≤ 200000) ∧ a.revision ≤ 255)
    ∧ ∀ m ∈ r.staged, -200000 ≤ m.drift ∧ m.drift ≤ 200000

/-- An enabled PROBED station that is not SILENT is ACQUIRING exactly when it has no model or the estimated flag is clear,
and no other station is ACQUIRING (R23, R31). -/
abbrev Station.StateGood (r : Station) : Prop :=
  (r.config.mode = .probed → r.state = .acquiring ∨ r.state = .tracking →
      (r.state = .acquiring ↔ ∀ a ∈ r.active, a.estimated = false))
    ∧ (r.config.mode ≠ .probed → r.state ≠ .acquiring)

/-- A station record as Table 2-1 and R23 give it. -/
abbrev Station.Good (r : Station) : Prop :=
  r.config.Good ∧ (∀ c ∈ r.pendingConfig, c.Good) ∧ (∀ q ∈ r.sequence, q.Good) ∧ (∀ h ∈ r.horizon, h ≤ maxUs)
    ∧ r.lastArrival ≤ maxUs ∧ r.lastSeconds ≤ 32767 ∧ r.counters.Good ∧ r.ModelsGood ∧ r.StateGood

/-- Every station record is good. -/
abbrev State.StationsGood (s : State) : Prop := ∀ n : StationNo, (s.station n).Good

/-- Every part of the state is good. -/
abbrev State.Good (s : State) : Prop :=
  s.TimingGood ∧ s.IntakesGood ∧ s.NoticesGood ∧ s.RingGood ∧ s.RangesGood ∧ s.StationsGood

/-! ### Terms that statements use -/

/-- A code word write of slot m is taken as a request: the part is not held in full reset and m's request slot is IDLE
(R158, R163). -/
abbrev State.Ready (s : State) (m : Slot) : Prop := s.inReset = false ∧ (s.ctx m).request.inFlight = false

/-- What a request taken and completed with a status and values leaves, given what its owning block made of the state:
the number raised, the code and the result recorded, REQUEST DONE (bit 5) pending, the write answered OK (R158, R159). -/
def State.answered (s : State) (m : Slot) (code : BitVec 8) (status : Status) (values : Values) : State :=
  let c := s.ctx m
  { s with
    bus := ⟨.ok, none⟩
    contexts := s.contexts.set m
      { c with
        request :=
          { c.request with
            inFlight := false
            lastCode := code
            number := c.request.number + 1
            result := ⟨code, c.request.number + 1, status, values⟩ }
        attention := { c.attention with pending := c.attention.pending ||| 0x20#6 } } }

/-- What the completion of slot m's request in flight leaves: its result words written, the slot IDLE, REQUEST DONE (bit 5)
pending (R159). -/
def State.finished (s : State) (m : Slot) (status : Status) (values : Values) : State :=
  let c := s.ctx m
  { s with
    contexts := s.contexts.set m
      { c with
        request :=
          { c.request with
            inFlight := false
            result := ⟨c.request.lastCode, c.request.number, status, values⟩ }
        attention := { c.attention with pending := c.attention.pending ||| 0x20#6 } } }

/-- What a request taken and left in flight leaves at slot m: the number raised, the code recorded, the slot IN FLIGHT with
result PENDING, the write answered OK (R158, R160). -/
def State.leftInFlight (s : State) (m : Slot) (code : BitVec 8) : State :=
  let c := s.ctx m
  { s with
    bus := ⟨.ok, none⟩
    contexts := s.contexts.set m
      { c with
        request :=
          { c.request with
            inFlight := true
            lastCode := code
            number := c.request.number + 1
            result := ⟨code, c.request.number + 1, .pending, Values.zero⟩ } } }

/-- TIMEBASE (bit 2) pending at every slot, the rest of each context as it was (R14). -/
def State.timebaseRaised (s : State) : State :=
  { s with
    contexts := vmap (fun c => { c with attention := { c.attention with pending := c.attention.pending ||| 0x04#6 } })
      s.contexts }

/-- No event of network time waits to be taken at the present network µs (R6, R10, R13, R18, R19, R20). -/
abbrev State.NothingDue (s : State) : Prop :=
  (s.timebase.slewEnded = true → s.timebase.phasePart = 0 ∧ s.timebase.slewRemainder = 0) ∧ s.timebase.boundaryDue = none ∧ s.timebase.expiryDue = none
    ∧ s.timebase.scanDue = false
    ∧ (s.timebase.discipline = .armed → ∀ f ∈ s.timebase.inFlight, s.timebase.us < f.armTime + 2000000)
    ∧ (s.timebase.discipline.valid = true → ∀ d ∈ s.timebase.deadline, s.timebase.us < d)

/-- From s to t nothing has changed but the windows and, at each slot, the reader state and the pending flags: what the
Window Store's operations reach (Chapters 6 and 7). -/
def WindowStep (s t : State) : Prop :=
  (∃ ws cs, t = { s with windows := ws, contexts := cs }) ∧
    ∀ k : Slot, ∃ r p, t.ctx k =
      { s.ctx k with reader := r, attention := { (s.ctx k).attention with pending := p } }

/-- The stations in service, ascending: those TRACKING or ACQUIRING (R104). -/
def State.stationsInService (s : State) : List StationNo :=
  (List.finRange 128).filter fun n =>
    decide ((s.station n).state = .tracking) || decide ((s.station n).state = .acquiring)

/-- A window as it stands when it has just been opened (R104). -/
def State.freshWindow (s : State) (n : Nat) : Window :=
  { number := n, closed := none, expected := s.stationsInService, covered := [], fragments := [], pending := [],
    endMark := false }

/-- The slots enrolled as readers, ascending (R114). -/
def State.readersEnrolled (s : State) : List Slot :=
  (List.finRange 4).filter fun m => (s.ctx m).reader.enrolled

/-- A closed window's notice (R114). -/
def Window.asNotice (w : Window) : Notice :=
  ⟨w.number, w.closed.getD .flush, w.fragments.length, w.expected.length, w.covered.length⟩

/-- Every station of the expected set is covered (R106). -/
abbrev Window.Complete (w : Window) : Prop := ∀ n ∈ w.expected, n ∈ w.covered

/-- A window closed for a reason, owed to some readers (R114). -/
def Window.shut (w : Window) (reason : CloseReason) (readers : List Slot) : Window :=
  { w with closed := some reason, pending := readers }

/-- A context that is handed notices, oldest first, if its slot is enrolled (R114, R125, R140): they join its queue as long
as it holds fewer than 8, what is left over sets the overflow flag, and a queue that was empty raises CLOSED (bit 3). -/
def Context.handed (c : Context) (notices : List Notice) : Context :=
  if c.reader.enrolled then
    let room := 8 - c.reader.notices.length
    { c with
      reader := { c.reader with
        notices := c.reader.notices ++ notices.take room
        overflow := c.reader.overflow || decide (room < notices.length) }
      attention := { c.attention with
        pending :=
          if c.reader.notices = [] ∧ notices ≠ [] then c.attention.pending ||| 0x08#6 else c.attention.pending } }
  else c

/-- Every window held changed by f, the ones that f closes handed to the readers in ascending window number, and nothing
else changed (R114, R125). -/
def State.closing (s : State) (f : Window → Window) : State :=
  let shut := ((s.held.filter fun w => w.isOpen && !(f w).isOpen).map f).insertionSort fun a b => a.number ≤ b.number
  { s with
    windows := vmap (Option.map f) s.windows
    contexts := vmap (fun c => c.handed (shut.map Window.asNotice)) s.contexts }

/-- What the removal of station n from service makes of a window (R105, R106): an OPEN window that expects n expects it no
more, and closes COMPLETE if its end mark is set and it is now complete. -/
def Window.without (w : Window) (n : StationNo) (readers : List Slot) : Window :=
  if w.isOpen = true ∧ n ∈ w.expected then
    let left : Window := { w with expected := w.expected.filter (· ≠ n) }
    if left.endMark = true ∧ left.Complete then left.shut .complete readers else left
  else w

/-- What the end checks of boundary b make of a window, at a network µs (R111, R112): an OPEN window below b has its end
mark set, and closes COMPLETE if it is complete, or EXPIRY if its expiry time is reached. -/
def Window.afterBoundary (w : Window) (b now : Nat) (p : Params) (readers : List Slot) : Window :=
  if w.isOpen = true ∧ w.number < b then
    let marked : Window := { w with endMark := true }
    if w.Complete then marked.shut .complete readers
    else if (w.number + 1) * (1000000 * p.windowLength) + 1000000 * p.holdOpen ≤ now then marked.shut .expiry readers
    else marked
  else w

/-- A fragment f entered in a window (R106 to R109): LOOSE above the tolerance, OVERLAP on f and on every fragment of its
station whose span shares a value with f's, f at its place in the order, f's station covered exactly when its fragments
without either flag hold `need` samples; the window closes COMPLETE if its end mark is set and it is now complete. -/
def Window.entered (w : Window) (f : Fragment) (tolerance need : Nat) (readers : List Slot) : Window :=
  let meets (g : Fragment) : Bool :=
    decide (g.station = f.station ∧ g.firstTime ≤ f.lastTime ∧ f.firstTime ≤ g.lastTime)
  let new := { f with loose := decide (tolerance < f.uncertainty), overlap := w.fragments.any meets }
  let others := w.fragments.map fun g => { g with overlap := g.overlap || meets g }
  let placed := others.takeWhile (fun g => !new.before g) ++ new :: others.dropWhile (fun g => !new.before g)
  let samples :=
    ((placed.filter fun g => decide (g.station = f.station) && !g.loose && !g.overlap).map Fragment.count).sum
  let filed : Window := { w with
    fragments := placed
    covered := (List.finRange 128).filter fun n => if n = f.station then need ≤ samples else n ∈ w.covered }
  if filed.endMark = true ∧ filed.Complete then filed.shut .complete readers else filed

/-- A cursor stands on window n, READING or AT END (R132). -/
abbrev Cursor.StandsOn (c : Cursor) (n : Nat) : Prop :=
  c.target = .window n ∧ (c.condition = .reading ∨ c.condition = .atEnd)

/-- The windows that meet a condition leave the ring, and every cursor that stands on one of them becomes GONE (R116,
R117, R132). -/
def State.without (s : State) (gone : Window → Bool) : State :=
  { s with
    windows := vmap (fun o => o.filter fun w => !gone w) s.windows
    contexts := vmap (fun c =>
      if ∃ w ∈ s.held, gone w = true ∧ c.reader.cursor.StandsOn w.number then
        { c with reader := { c.reader with cursor := { c.reader.cursor with condition := .gone } } }
      else c) s.contexts }

/-- What a reclaim of the CLOSED window w leaves (R117, R135): each slot of its pending set counts a missed window, holds w
as its last missed window and has RECLAIMED (bit 1) pending; w leaves the ring; nothing else changes. -/
def State.losing (s : State) (w : Window) : State :=
  State.without
    { s with contexts := Vector.ofFn fun k : Slot =>
        let c := s.ctx k
        if k ∈ w.pending then
          { c with
            reader := { c.reader with missed := min 65535 (c.reader.missed + 1), lastMissed := some w.number }
            attention := { c.attention with pending := c.attention.pending ||| 0x02#6 } }
        else c }
    fun x => x.number == w.number

/-- The CLOSED windows held, in ascending window number. -/
def State.closedAscending (s : State) : List Window :=
  (s.held.filter fun w => !w.isOpen).insertionSort fun a b => a.number ≤ b.number

/-- Station n's record replaced by r, nothing else changed. -/
def State.withRecordOf (s : State) (n : StationNo) (r : Station) : State := { s with stations := s.stations.set n r }

/-- Station n, in service or not, given the record r out of service: if it was in service, OPEN windows expect it no more
(R28, R36, R42, R105). -/
def State.outOfService (s : State) (n : StationNo) (r : Station) : State :=
  if (s.station n).state = .tracking ∨ (s.station n).state = .acquiring then
    State.closing (s.withRecordOf n r) fun w => w.without n s.readersEnrolled
  else s.withRecordOf n r

/-- A bus error record after one more failure (R155). -/
def oneMoreFailure (b : Option BusError) (kind : ParityKind) (address : WordAddress) (m : Slot) (d : Direction) :
    Option BusError :=
  match b with
  | none => some ⟨kind, address, m, d, 1⟩
  | some b => some { b with count := min 65535 (b.count + 1) }

/-- The eighteen requests as commands of slot m, each by its code word (Table 11-3). -/
def requestsOf (m : Slot) : List (BitVec 8 × Instr) :=
  [(1, .setTime m), (2, .reacquire m), (3, .readTime m), (4, .setRange m), (5, .enableStation m),
    (6, .disableStation m), (7, .configureStation m), (8, .clearCounters m), (9, .intakeReset m),
    (10, .setThreshold m), (11, .enrol m), (12, .withdraw m), (13, .openCursor m), (14, .release m),
    (15, .start m), (16, .halt m), (17, .setParameter m), (18, .contextReset m .codeWord)]

/-- The timed events in the order in which an oscillator cycle takes those that wait (log 5). -/
def timedEvents : List Instr :=
  [.slewRemainderEnd, .armedExpiry, .missingPulseEvent, .boundaryEvent, .expiryEvent, .scanEvent]

/-- Commands executed one after the other, while each answers a next state. -/
def execAll (cs : List Instr) (s : State) : Host.Outcome State Fault Refusal :=
  match cs with
  | [] => .next s
  | c :: rest =>
    match exec c s with
    | .next t => execAll rest t
    | .fault f => .fault f
    | .refused r => .refused r

/-- The slot whose transaction a command is; none for events and resets. -/
def sender : Instr → Option Slot
  | .oscillatorCycle | .slewRemainderEnd | .refPulse _ | .armedExpiry | .missingPulseEvent | .boundaryEvent
  | .expiryEvent | .scanEvent | .capturePulse _ _ | .fullReset _ | .fullResetEnd _ _ | .recordTaking => none
  | .addressParityError _ m _ | .registerWrite _ m _ _ | .busErrorClear m _ | .commit m _ | .noticePop m
  | .overflowClear m _ | .cursorRead m | .cursorPositionWrite m _ | .flagsWordWrite m _ | .enableMaskWrite m _
  | .pollRead m | .setTime m | .reacquire m | .readTime m | .setRange m | .enableStation m | .disableStation m
  | .configureStation m | .clearCounters m | .intakeReset m | .setThreshold m | .enrol m | .withdraw m
  | .openCursor m | .release m | .start m | .halt m | .setParameter m | .contextReset m _
  | .unknownRequestCode m _ | .requestSlotRetry m _ => some m

/-- A command that asserts a reset line (R173). -/
def isFullReset : Instr → Bool
  | .fullReset _ => true
  | .oscillatorCycle | .slewRemainderEnd | .refPulse _ | .armedExpiry | .missingPulseEvent | .boundaryEvent
  | .expiryEvent | .scanEvent | .capturePulse _ _ | .fullResetEnd _ _ | .recordTaking
  | .addressParityError _ _ _ | .registerWrite _ _ _ _ | .busErrorClear _ _ | .commit _ _ | .noticePop _
  | .overflowClear _ _ | .cursorRead _ | .cursorPositionWrite _ _ | .flagsWordWrite _ _ | .enableMaskWrite _ _
  | .pollRead _ | .setTime _ | .reacquire _ | .readTime _ | .setRange _ | .enableStation _ | .disableStation _
  | .configureStation _ | .clearCounters _ | .intakeReset _ | .setThreshold _ | .enrol _ | .withdraw _
  | .openCursor _ | .release _ | .start _ | .halt _ | .setParameter _ | .contextReset _ _
  | .unknownRequestCode _ _ | .requestSlotRetry _ _ => false

end Sys2Proof.Machine
end

