-- ==== Sys2Proof/Certificates/Slice0/Obligations.lean ====
section
/-! DEFINITION. The statements about the 7320 for the provers. Each docstring names the rules of spec/ that the statement
formalises, and says where a clause is the model's own choice. Every statement about a command has the command's next
state as its conclusion. The field `bus` of a next state holds what the 7320 answered (log 7); a timed event waits in the
Timebase's fields until its command takes it (log 4). -/

open Sys2Proof Sys2Proof.Machine

/-! ### The step -/

/-- MODEL's choice of the block's queue (log 1, log 3; 00 section 0.6.6): a step takes the command at the front of the queue
and is that command executed with the queue's rest; on an empty queue the part idles. -/
def Obligations.StepRunsTheFrontCommand : Prop :=
  (∀ (c : Instr) (rest : List Instr) (s : State),
      step { s with pending := c :: rest } = exec c { s with pending := rest })
    ∧ ∀ s : State, s.pending = [] → step s = .next s

/-! ### The Timebase -/

/-- 01 section 1.1 (R1, R2) and R13: an oscillator cycle adds 524,288,000 + T units to fine time, T being F + P clamped
within ±262,144; fine time is held at 2^56 - 1 µs with fraction 2^32 - 1 when the step would carry it past; in SLEWING the
remainder loses |P|. Nothing else changes but the events of R18 to R20. No event waits: see CycleTakesWaitingEventsFirst for
the order of those that do (log 5). -/
def Obligations.OscillatorCycleAddsTheStep : Prop :=
  ∀ s : State, s.inReset = false → s.NothingDue →
    ∃ t : Timebase, exec .oscillatorCycle s = .next { s with timebase := t } ∧
      let sum : Nat := (((2 ^ 32 * s.timebase.us + s.timebase.frac : Nat) : Int) + 524288000
        + max (-262144) (min 262144 (s.timebase.freqPart + s.timebase.phasePart))).toNat
      (sum < 2 ^ 88 → 2 ^ 32 * t.us + t.frac = sum ∧ t.frac < 2 ^ 32)
        ∧ (2 ^ 88 ≤ sum → t.us = 2 ^ 56 - 1 ∧ t.frac = 2 ^ 32 - 1)
        ∧ t.slewRemainder =
            (if s.timebase.discipline = .slewing then s.timebase.slewRemainder - s.timebase.phasePart.natAbs
              else s.timebase.slewRemainder)
        ∧ t = { s.timebase with
                us := t.us, frac := t.frac, slewRemainder := t.slewRemainder, boundaryDue := t.boundaryDue,
                expiryDue := t.expiryDue, scanDue := t.scanDue }

/-- 01 section 1.9 (R18, R19, R20): when a cycle brings the network µs to a new value in LOCKED, HOLDOVER or SLEWING, it
raises (into the fields where events wait, log 4) the boundary event of window b exactly when the value is b · L · 10^6, the
expiry event of window w exactly when it is (w + 1) · L · 10^6 + H · 10^6, and the scan event exactly when it is a whole
multiple of 2^(k+1); otherwise it raises none. -/
def Obligations.CycleRaisesTheEventsOfTheMicrosecond : Prop :=
  ∀ s t : State, s.inReset = false → s.NothingDue → s.params.Good → exec .oscillatorCycle s = .next t →
    (t.timebase.us = s.timebase.us ∨ s.timebase.discipline = .free ∨ s.timebase.discipline = .armed →
        t.timebase.boundaryDue = none ∧ t.timebase.expiryDue = none ∧ t.timebase.scanDue = false)
      ∧ (t.timebase.us ≠ s.timebase.us → s.timebase.discipline ≠ .free → s.timebase.discipline ≠ .armed →
          (∀ b : Nat, t.timebase.boundaryDue = some b ↔ b * (1000000 * s.params.windowLength) = t.timebase.us)
            ∧ (∀ w : Nat, t.timebase.expiryDue = some w ↔
                (w + 1) * (1000000 * s.params.windowLength) + 1000000 * s.params.holdOpen = t.timebase.us)
            ∧ (t.timebase.scanDue = true ↔ 2 ^ (s.params.scanBit + 1) ∣ t.timebase.us))

/-- MODEL's choice (log 5; 01 section 1.9, 00 section 0.6.6): a cycle first takes the events that wait, in the order of
`timedEvents`, each as its own command would take it; after them no event waits, and the cycle goes on from there. -/
def Obligations.CycleTakesWaitingEventsFirst : Prop :=
  ∀ s : State, s.inReset = false →
    ∃ t : State, execAll timedEvents s = .next t ∧ t.NothingDue ∧ exec .oscillatorCycle s = exec .oscillatorCycle t

/-- R3's first sentences (01 section 1.2) with log 4 and log 17: a pulse in FREE and an edge that the strap does not select
do nothing, and a timed event that does not wait does nothing. -/
def Obligations.EventsThatAreNotThereDoNothing : Prop :=
  ∀ s : State, s.inReset = false →
    (s.NothingDue → ∀ c ∈ timedEvents, exec c s = .next s)
      ∧ ∀ edge : Edge, edge ≠ s.straps.refEdge ∨ s.timebase.discipline = .free → exec (.refPulse edge) s = .next s

/-- 01 section 1.2 (R3): the pulse error is fine time less a whole second of network time and lies from -500,000 µs up to,
not including, +500,000 µs, so the second is the nearest and a time exactly halfway counts toward the later one. -/
def Obligations.PulseErrorIsFromTheNearestSecond : Prop :=
  ∀ t : Timebase, ∃ second : Nat,
    t.pulseError = ((2 ^ 32 * t.us + t.frac : Nat) : Int) - ((1000000 * 2 ^ 32 * second : Nat) : Int)
      ∧ -(500000 * 2 ^ 32) ≤ t.pulseError ∧ t.pulseError < 500000 * 2 ^ 32

/-- R8 and R9, after the measurement of R3: a pulse in LOCKED. In window it sets P and F and clears the bad-run count; out of
window it sets P to 0, keeps F and raises the bad-run count, and the third in a row enters HOLDOVER. -/
def Obligations.LockedPulseSteersOrCounts : Prop :=
  ∀ s : State, s.inReset = false → s.timebase.discipline = .locked →
    let e := s.timebase.pulseError
    let seen : Timebase := { s.timebase with
      lastError := e, pulsesTaken := min 65535 (s.timebase.pulsesTaken + 1),
      deadline := some (s.timebase.us + 1500000) }
    let far : Timebase := { seen with outOfWindow := min 65535 (s.timebase.outOfWindow + 1) }
    (e.natAbs ≤ 2 ^ 32 * s.params.lockWindow →
        exec (.refPulse s.straps.refEdge) s = .next { s with timebase := { seen with
          phasePart := -(e.tdiv (125 * 2 ^ (16 + s.params.gp)))
          freqPart := max (-262144) (min 262144 (s.timebase.freqPart - e.tdiv (125 * 2 ^ (16 + s.params.gi))))
          badRun := 0 } })
      ∧ (2 ^ 32 * s.params.lockWindow < e.natAbs → s.timebase.badRun < 2 →
          exec (.refPulse s.straps.refEdge) s = .next { s with timebase := { far with
            phasePart := 0, badRun := s.timebase.badRun + 1 } })
      ∧ (2 ^ 32 * s.params.lockWindow < e.natAbs → 2 ≤ s.timebase.badRun →
          exec (.refPulse s.straps.refEdge) s = .next { s.timebaseRaised with timebase := { far with
            discipline := .holdover, phasePart := 0, slewRemainder := 0, badRun := 0, goodRun := 0,
            holdoverStart := s.timebase.us } })

/-- R11, after the measurement of R3: a pulse in HOLDOVER leaves F and P; out of window it clears the good-run count, in
window it raises it, and an in-window pulse that finds it at 3 enters LOCKED with the update of R8. -/
def Obligations.HoldoverPulseCountsOrRelocks : Prop :=
  ∀ s : State, s.inReset = false → s.timebase.discipline = .holdover →
    let e := s.timebase.pulseError
    let seen : Timebase := { s.timebase with
      lastError := e, pulsesTaken := min 65535 (s.timebase.pulsesTaken + 1),
      deadline := some (s.timebase.us + 1500000) }
    (2 ^ 32 * s.params.lockWindow < e.natAbs →
        exec (.refPulse s.straps.refEdge) s = .next { s with timebase := { seen with
          outOfWindow := min 65535 (s.timebase.outOfWindow + 1), goodRun := 0 } })
      ∧ (e.natAbs ≤ 2 ^ 32 * s.params.lockWindow → s.timebase.goodRun < 3 →
          exec (.refPulse s.straps.refEdge) s = .next { s with timebase := { seen with
            goodRun := s.timebase.goodRun + 1 } })
      ∧ (e.natAbs ≤ 2 ^ 32 * s.params.lockWindow → 3 ≤ s.timebase.goodRun →
          exec (.refPulse s.straps.refEdge) s = .next { s.timebaseRaised with timebase := { seen with
            discipline := .locked
            phasePart := -(e.tdiv (125 * 2 ^ (16 + s.params.gp)))
            freqPart := max (-262144) (min 262144 (s.timebase.freqPart - e.tdiv (125 * 2 ^ (16 + s.params.gi))))
            badRun := 0, goodRun := 0 } })

/-- 01 section 1.5 (R13), after the measurement of R3: a pulse in SLEWING relocks in window and drives the trim to its limit
against the error out of window; when the remainder is below |P| or 0, P and the remainder become 0. That this end is a
command of its own, taken between cycles, is the model's choice (log 16). -/
def Obligations.SlewingPulseAndTheEndOfASlew : Prop :=
  ∀ s : State, s.inReset = false → s.timebase.discipline = .slewing →
    let e := s.timebase.pulseError
    let seen : Timebase := { s.timebase with
      lastError := e, pulsesTaken := min 65535 (s.timebase.pulsesTaken + 1),
      deadline := some (s.timebase.us + 1500000) }
    (e.natAbs ≤ 2 ^ 32 * s.params.lockWindow →
        exec (.refPulse s.straps.refEdge) s = .next { s.timebaseRaised with timebase := { seen with
          discipline := .locked
          phasePart := -(e.tdiv (125 * 2 ^ (16 + s.params.gp)))
          freqPart := max (-262144) (min 262144 (s.timebase.freqPart - e.tdiv (125 * 2 ^ (16 + s.params.gi))))
          slewRemainder := 0, badRun := 0 } })
      ∧ (2 ^ 32 * s.params.lockWindow < e.natAbs →
          exec (.refPulse s.straps.refEdge) s = .next { s with timebase := { seen with
            outOfWindow := min 65535 (s.timebase.outOfWindow + 1)
            phasePart := (if 0 < e then -262144 else 262144) - s.timebase.freqPart
            slewRemainder := e.natAbs } })
      ∧ (s.timebase.slewRemainder < s.timebase.phasePart.natAbs ∨ s.timebase.slewRemainder = 0 →
          exec .slewRemainderEnd s = .next { s with timebase := { s.timebase with
            phasePart := 0, slewRemainder := 0 } })

/-- R5 and R35: a pulse in ARMED sets fine time to N · 10^6 µs and enters LOCKED, raising no event of the values passed over;
the stations that are not DISABLED take that moment as their last arrival, the SET TIME in flight completes OK with N, and
TIMEBASE is raised everywhere. -/
def Obligations.ArmedPulseSetsTheTime : Prop :=
  ∀ (s : State) (f : SetTimeInFlight), s.inReset = false → s.timebase.discipline = .armed →
    s.timebase.inFlight = some f →
    exec (.refPulse s.straps.refEdge) s = .next
      (State.finished
        (State.timebaseRaised { s with
          timebase := { s.timebase with
            us := 1000000 * f.second, frac := 0, discipline := .locked, phasePart := 0, lastError := 0, badRun := 0,
            goodRun := 0, deadline := some (1000000 * f.second + 1500000), inFlight := none }
          stations := vmap (fun r => if r.state = .disabled then r else { r with lastArrival := 1000000 * f.second })
            s.stations })
        f.slot .ok ⟨BitVec.ofNat 32 f.second, BitVec.ofNat 32 (f.second / 2 ^ 32), 0⟩)

/-- R6 and R10: the ARMED expiry, at the arm time plus 2,000,000, completes SET TIME with TIMEOUT and returns to FREE; the
missing-pulse event, at the deadline, counts, moves the deadline on by 1,000,000, and enters HOLDOVER from LOCKED and SLEWING
or clears the good-run count in HOLDOVER. -/
def Obligations.ArmedExpiryAndMissingPulse : Prop :=
  (∀ (s : State) (f : SetTimeInFlight), s.inReset = false → s.timebase.discipline = .armed →
      s.timebase.inFlight = some f → f.armTime + 2000000 ≤ s.timebase.us →
      exec .armedExpiry s = .next
        (State.finished
          (State.timebaseRaised { s with timebase := { s.timebase with discipline := .free, inFlight := none } })
          f.slot .timeout Values.zero))
    ∧ ∀ (s : State) (d : Nat), s.inReset = false → s.timebase.deadline = some d → d ≤ s.timebase.us →
        let missed : Timebase := { s.timebase with
          missingPulses := min 65535 (s.timebase.missingPulses + 1), deadline := some (s.timebase.us + 1000000) }
        (s.timebase.discipline = .locked ∨ s.timebase.discipline = .slewing →
            exec .missingPulseEvent s = .next { s.timebaseRaised with timebase := { missed with
              discipline := .holdover, phasePart := 0, slewRemainder := 0, badRun := 0, goodRun := 0,
              holdoverStart := s.timebase.us } })
          ∧ (s.timebase.discipline = .holdover →
              exec .missingPulseEvent s = .next { s with timebase := { missed with goodRun := 0 } })

/-- R14, over every command but a full reset, in states whose timing is good (TimingStaysGood): a change of discipline state
is one of the eight listed and leaves TIMEBASE (bit 2) pending at all four slots; while the state stays the same, no command
raises TIMEBASE. -/
def Obligations.TimebaseCauseMarksEveryChange : Prop :=
  ∀ (c : Instr) (s t : State), s.TimingGood → isFullReset c = false → exec c s = .next t →
    (t.timebase.discipline ≠ s.timebase.discipline →
        (s.timebase.discipline, t.timebase.discipline) ∈
            ([(.free, .armed), (.armed, .locked), (.armed, .free), (.locked, .holdover), (.holdover, .locked),
              (.holdover, .slewing), (.slewing, .locked), (.slewing, .holdover)] : List (Discipline × Discipline))
          ∧ ∀ m : Slot, (t.ctx m).attention.pending.getLsbD 2 = true)
      ∧ (t.timebase.discipline = s.timebase.discipline →
          ∀ m : Slot, (t.ctx m).attention.pending.getLsbD 2 = true → (s.ctx m).attention.pending.getLsbD 2 = true)

/-- 01 section 1.1 (R1): once network time is valid, no step but a full reset takes the Timebase back to FREE or ARMED, and
network time never decreases. -/
def Obligations.ValidTimeNeverDecreases : Prop :=
  ∀ s t : State, s.TimingGood → s.timebase.discipline.valid = true →
    (∀ c ∈ s.pending.head?, isFullReset c = false) → step s = .next t →
      t.timebase.discipline.valid = true
        ∧ 2 ^ 32 * s.timebase.us + s.timebase.frac ≤ 2 ^ 32 * t.timebase.us + t.timebase.frac

/-- 01 sections 1.1 to 1.3 and 10 Table 10-3 (R1 to R6, R9 to R11, R13, R21, R168): every step keeps the parameters and the
Timebase's values in their ranges, the deadline present exactly while network time is valid, a SET TIME in flight exactly in
ARMED, and its slot's request slot alone IN FLIGHT. -/
def Obligations.TimingStaysGood : Prop :=
  ∀ s t : State, s.TimingGood → step s = .next t → t.TimingGood

/-- The state after reset meets every invariant of Safety (02 section 2.10, 05 section 5.12, 06 section 6.13, 07 section 7.9,
10 section 10.6). -/
def Obligations.EveryInvariantHoldsAtReset : Prop := State.reset.Good

/-! ### Requests of the Timebase -/

/-- R4: SET TIME completes BUSY in ARMED, STATE in LOCKED, HOLDOVER and SLEWING, BAD_ARG in FREE for an N above
68,719,476,735; in FREE with N in range it arms the Timebase, with TIMEBASE raised everywhere, and stays in flight with its
result PENDING. -/
def Obligations.SetTimeArmsOrCompletes : Prop :=
  ∀ (s : State) (m : Slot), s.Ready m →
    let second := (s.arg m 0).toNat + 2 ^ 32 * (s.arg m 1).toNat
    (s.timebase.discipline = .armed → exec (.setTime m) s = .next (s.answered m 1 .busy Values.zero))
      ∧ (s.timebase.discipline ∈ ([.locked, .holdover, .slewing] : List Discipline) →
          exec (.setTime m) s = .next (s.answered m 1 .state Values.zero))
      ∧ (s.timebase.discipline = .free → 68719476735 < second →
          exec (.setTime m) s = .next (s.answered m 1 .badArg Values.zero))
      ∧ (s.timebase.discipline = .free → second ≤ 68719476735 →
          exec (.setTime m) s = .next
            (State.leftInFlight
              (State.timebaseRaised { s with timebase := { s.timebase with
                discipline := .armed, inFlight := some ⟨m, second, s.timebase.us⟩ } })
              m 1))

/-- R12: REACQUIRE in HOLDOVER enters SLEWING with both run counts 0, P and the slew remainder as they are, and completes OK;
in any other state it completes STATE and changes nothing. -/
def Obligations.ReacquireLeavesHoldoverAlone : Prop :=
  ∀ (s : State) (m : Slot), s.Ready m →
    (s.timebase.discipline = .holdover →
        exec (.reacquire m) s = .next
          (State.answered
            (State.timebaseRaised { s with timebase := { s.timebase with
              discipline := .slewing, goodRun := 0, badRun := 0 } })
            m 2 .ok Values.zero))
      ∧ (s.timebase.discipline ≠ .holdover →
          exec (.reacquire m) s = .next (s.answered m 2 .state Values.zero))

/-- 01 sections 1.7 and 1.8 (R15, R16): READ TIME completes OK in every state with the network µs, the discipline state and
the hub term of one moment, and changes nothing else; that hub term is the one that correction uses. With the holdover start
ahead of the network µs, which no run brings about, the seconds in HOLDOVER are 0 (log 21, the model's own). -/
def Obligations.ReadTimeReportsOneMoment : Prop :=
  ∀ (s : State) (m : Slot), s.Ready m →
    let e := (s.timebase.lastError.natAbs + 2 ^ 32 - 1) / 2 ^ 32
    let seconds := (s.timebase.us - s.timebase.holdoverStart) / 1000000
    let hub : Nat :=
      match s.timebase.discipline with
      | .free | .armed => 16777215
      | .locked | .slewing => min 16777215 e
      | .holdover => min 16777215 (e + (seconds * s.params.hubGrowth + 1000 - 1) / 1000)
    let code : Nat :=
      match s.timebase.discipline with
      | .free => 0 | .armed => 1 | .locked => 2 | .holdover => 3 | .slewing => 4
    exec (.readTime m) s = .next
        (s.answered m 3 .ok
          ⟨BitVec.ofNat 32 s.timebase.us, BitVec.ofNat 32 (s.timebase.us / 2 ^ 32),
            BitVec.ofNat 32 (2 ^ 24 * code + hub)⟩)
      ∧ hubTerm s.timebase s.params.hubGrowth = hub

/-! ### The Station Table -/

/-- R25, in states whose range table is good (RangesStayGood): SET RANGE completes BAD_ARG, OVERLAP or BUSY by the first of
its three checks that fails, changing nothing, and otherwise writes the caller's entry and completes OK with it. A slot owns
the stations of its valid range entry (R24). -/
def Obligations.SetRangeChecksInOrder : Prop :=
  ∀ (s : State) (m : Slot), s.Ready m → s.RangesGood →
    let base := (s.arg m 0).toNat
    let size := (s.arg m 1).toNat
    let aligned := size ∈ [1, 2, 4, 8, 16, 32, 64, 128] ∧ base % size = 0 ∧ base + size ≤ 128
    let inNew (n : StationNo) := base ≤ n.val ∧ n.val < base + size
    let overlap := ∃ k : Slot, k ≠ m ∧ ∃ n : StationNo, s.owns k n = true ∧ inNew n
    let stranded := ∃ n : StationNo, s.owns m n = true ∧ (s.station n).state ≠ .disabled ∧ ¬inNew n
    (¬(size = 0 ∧ base = 0) → ¬aligned → exec (.setRange m) s = .next (s.answered m 4 .badArg Values.zero))
      ∧ (aligned → overlap → exec (.setRange m) s = .next (s.answered m 4 .overlap Values.zero))
      ∧ ((size = 0 ∧ base = 0) ∨ aligned → ¬overlap → stranded →
          exec (.setRange m) s = .next (s.answered m 4 .busy Values.zero))
      ∧ (aligned → ¬overlap → ¬stranded →
          exec (.setRange m) s = .next
            (State.answered { s with contexts := s.contexts.set m { s.ctx m with range := some ⟨base, size⟩ } }
              m 4 .ok ⟨s.arg m 0, s.arg m 1, 1⟩))
      ∧ (size = 0 → base = 0 → ¬stranded →
          exec (.setRange m) s = .next
            (State.answered { s with contexts := s.contexts.set m { s.ctx m with range := none } }
              m 4 .ok Values.zero))
      ∧ ∀ (k : Slot) (n : StationNo),
          s.owns k n = true ↔ ∃ r : Range, (s.ctx k).range = some r ∧ r.base ≤ n.val ∧ n.val < r.base + r.size

/-- R26: each of the four owner requests completes BAD_ARG for a station number above 127 and NOT_OWNER for a station outside
the caller's valid range, and changes nothing. -/
def Obligations.OwnerRequestsCheckTheOwner : Prop :=
  ∀ (s : State) (m : Slot), s.Ready m →
    ∀ p ∈ ([(5, .enableStation m), (6, .disableStation m), (7, .configureStation m), (8, .clearCounters m)] :
        List (BitVec 8 × Instr)),
      (127 < (s.arg m 0).toNat → exec p.2 s = .next (s.answered m p.1 .badArg Values.zero))
        ∧ ∀ n : StationNo, (s.arg m 0).toNat = n.val → s.owns m n = false →
            exec p.2 s = .next (s.answered m p.1 .notOwner Values.zero)

/-- R27, and CLEAR COUNTERS of R41: for a station of the caller, ENABLE STATION completes STATE unless the station is
DISABLED, and otherwise sets its state by its mode and its last arrival to the present network µs; CLEAR COUNTERS sets its
eight counters to 0 in any state. -/
def Obligations.EnableStationAndClearCounters : Prop :=
  ∀ (s : State) (m : Slot) (n : StationNo), s.Ready m → (s.arg m 0).toNat = n.val → s.owns m n = true →
    ((s.station n).state ≠ .disabled →
        exec (.enableStation m) s = .next (s.answered m 5 .state Values.zero))
      ∧ ((s.station n).state = .disabled →
          exec (.enableStation m) s = .next
            (State.answered
              { s with stations := s.stations.set n { s.station n with
                  state :=
                    if (s.station n).config.mode = .probed ∧ ∀ a ∈ (s.station n).active, a.estimated = false then
                      .acquiring
                    else .tracking
                  lastArrival := s.timebase.us } }
              m 5 .ok Values.zero))
      ∧ exec (.clearCounters m) s = .next
          (State.answered
            { s with stations := s.stations.set n { s.station n with counters := ⟨0, 0, 0, 0, 0, 0, 0, 0⟩ } }
            m 8 .ok Values.zero)

/-- 02 sections 2.4 and 2.7 and 06 section 6.4 (R28, R36, R105, R106): DISABLE STATION of the caller's station completes OK
without change when it is DISABLED, and otherwise applies its pending configuration (as BoundaryAppliesEveryStation gives it)
and takes it out of service, DISABLED. A scan event that waits (log 4) takes out of service, SILENT, every station in service
whose last arrival is at least the silence timeout before, in ascending station number. What leaves service is expected by no
OPEN window any more, and a window with its end mark set that this leaves complete closes COMPLETE, with its notices
(State.outOfService). -/
def Obligations.StationsOutOfServiceAreExpectedNoMore : Prop :=
  (∀ (s : State) (m : Slot) (n : StationNo), s.Ready m → s.RingGood → (s.arg m 0).toNat = n.val →
      s.owns m n = true →
      ((s.station n).state = .disabled →
          exec (.disableStation m) s = .next (s.answered m 6 .ok Values.zero))
        ∧ ((s.station n).state ≠ .disabled →
            exec (.disableStation m) s = .next
              (State.answered (s.outOfService n { (s.station n).applyPending with state := .disabled }) m 6 .ok
                Values.zero)))
    ∧ ∀ s : State, s.inReset = false → s.RingGood → s.timebase.scanDue = true →
        let silent : List StationNo := (List.finRange 128).filter fun n =>
          decide (((s.station n).state = .tracking ∨ (s.station n).state = .acquiring)
            ∧ (s.station n).lastArrival + 1000000 * s.params.silenceTimeout ≤ s.timebase.us)
        exec .scanEvent s = .next
          (silent.foldl (fun u n => u.outOfService n { u.station n with state := .silent })
            { s with timebase := { s.timebase with scanDue := false } })

/-- R29, R30 and R31: for a station of the caller, CONFIGURE STATION completes BAD_ARG when a value lies outside its range;
otherwise it is staged (result 2) for an enabled station in RUN, and applied at once (result 1) in every other case: the five
values written and the pending configuration removed, and on a change of mode the models, anchor, history and horizon
discarded and the state set. -/
def Obligations.ConfigureStationStagesOrApplies : Prop :=
  ∀ (s : State) (m : Slot) (n : StationNo), s.Ready m → (s.arg m 0).toNat = n.val → s.owns m n = true →
    let outside := 2 < (s.arg m 1).toNat ∨ 9 < (s.arg m 2).toNat ∨ (s.arg m 3).toInt < -500000
      ∨ 500000 < (s.arg m 3).toInt ∨ 10000000 < (s.arg m 4).toNat ∨ 16777215 < (s.arg m 5).toNat
    let r := s.station n
    (outside → exec (.configureStation m) s = .next (s.answered m 7 .badArg Values.zero))
      ∧ (¬outside → ∀ mode : Mode, (s.arg m 1).toNat = mode.code →
          let c : StationConfig :=
            ⟨mode, (s.arg m 2).toNat, (s.arg m 3).toInt, (s.arg m 4).toNat, (s.arg m 5).toNat⟩
          (r.state ≠ .disabled → s.part = .run →
              exec (.configureStation m) s = .next
                (State.answered { s with stations := s.stations.set n { r with pendingConfig := some c } }
                  m 7 .ok ⟨2, 0, 0⟩))
            ∧ (r.state = .disabled ∨ s.part = .setup → mode = r.config.mode →
                exec (.configureStation m) s = .next
                  (State.answered
                    { s with stations := s.stations.set n { r with config := c, pendingConfig := none } }
                    m 7 .ok ⟨1, 0, 0⟩))
            ∧ (r.state = .disabled ∨ s.part = .setup → mode ≠ r.config.mode →
                exec (.configureStation m) s = .next
                  (State.answered
                    { s with stations := s.stations.set n { r with
                        config := c, pendingConfig := none, active := none, staged := none, anchor := none,
                        history := [], horizon := none
                        state :=
                          if r.state = .tracking ∨ r.state = .acquiring then
                            (if mode = .probed then .acquiring else .tracking)
                          else r.state } }
                    m 7 .ok ⟨1, 0, 0⟩)))

/-- 02 sections 2.5 and 2.6 (R31, R32). Applying a configuration writes it and removes the pending one; on a change of mode
it also discards the models, anchor, history and horizon, and a TRACKING or ACQUIRING station becomes ACQUIRING for PROBED
and TRACKING otherwise. Applying a staged model replaces the active model's fields, raises the revision by one modulo 256 and
keeps the estimated flag. A boundary event that waits (log 4) applies every station's pending configuration, then the staged
model if one is still held. In SETUP the Window Store does nothing. Nothing else changes but what the Window Store does
(WindowStep). -/
def Obligations.BoundaryAppliesEveryStation : Prop :=
  (∀ r : Station,
    (r.pendingConfig = none → r.applyPending = r)
      ∧ (∀ c : StationConfig, r.pendingConfig = some c → c.mode = r.config.mode →
          r.applyPending = { r with config := c, pendingConfig := none })
      ∧ (∀ c : StationConfig, r.pendingConfig = some c → c.mode ≠ r.config.mode →
          r.applyPending = { r with
            config := c, pendingConfig := none, active := none, staged := none, anchor := none, history := []
            horizon := none
            state :=
              match r.state with
              | .tracking | .acquiring => if c.mode = .probed then .acquiring else .tracking
              | .silent => .silent
              | .disabled => .disabled })
      ∧ (r.staged = none ∨ r.active = none → r.applyStaged = r)
      ∧ ∀ (g : StagedModel) (a : ActiveModel), r.staged = some g → r.active = some a →
          r.applyStaged = { r with
            active := some ⟨g.offset, g.drift, g.reference, g.delay, (a.revision + 1) % 256, a.estimated⟩
            staged := none })
  ∧ ∀ (s : State) (b : Nat), s.inReset = false → s.timebase.boundaryDue = some b →
    ∃ t : State, exec .boundaryEvent s = .next t
      ∧ WindowStep { s with timebase := { s.timebase with boundaryDue := none }, stations := t.stations } t
      ∧ (s.part = .setup → t.windows = s.windows ∧ t.contexts = s.contexts)
      ∧ ∀ n : StationNo,
          let r := (s.station n).applyPending
          (r.staged = none ∨ r.active = none → t.station n = r)
            ∧ ∀ (g : StagedModel) (a : ActiveModel), r.staged = some g → r.active = some a →
                t.station n = { r with
                  active := some ⟨g.offset, g.drift, g.reference, g.delay, (a.revision + 1) % 256, a.estimated⟩
                  staged := none }

/-- R38: marking a sequence number s. An absent state is created; a number 1 to 32 behind the last joins the seen-set; a
number ahead becomes the last, the old last joins the seen-set, what is not 1 to 32 behind s leaves it, and the gaps counter
rises by a - 1. The state keeps its form. -/
def Obligations.MarkingKeepsTheSequenceWindow : Prop :=
  ∀ s : Nat, s ≤ 65535 →
    markSequence none s = (⟨s, []⟩, 0)
      ∧ ∀ q : SequenceState, q.Good →
          let d := (((q.last : Int) - s) % 65536).toNat
          let marked := (markSequence (some q) s).1
          marked.Good ∧ marked.seen.length ≤ 32
            ∧ (1 ≤ d → d ≤ 32 → marked.last = q.last ∧ (∀ x, x ∈ marked.seen ↔ x = s ∨ x ∈ q.seen)
                ∧ (markSequence (some q) s).2 = 0)
            ∧ (32768 ≤ d → marked.last = s
                ∧ (∀ x, x ∈ marked.seen ↔
                    (x = q.last ∨ x ∈ q.seen) ∧ 1 ≤ ((s : Int) - x) % 65536 ∧ ((s : Int) - x) % 65536 ≤ 32)
                ∧ (markSequence (some q) s).2 = 65536 - d - 1)

/-- 02 section 2.3 (R24, R25, R42): every step keeps the range entries in form, no station in two of them, and every station
that is not DISABLED in one. -/
def Obligations.RangesStayGood : Prop :=
  ∀ s t : State, s.RangesGood → step s = .next t → t.RangesGood

/-- 02 sections 2.1 to 2.9 and 03 section 3.4 (R22, R23, R28, R38, R41, R53, R57, R60): every step keeps every station record
in form: values in range, models only in PROBED mode and with an anchor and a history, ACQUIRING exactly when the drift is
not yet estimated, no pending configuration while DISABLED. Last arrivals are network time, so the timing must be good. -/
def Obligations.StationsStayGood : Prop :=
  ∀ s t : State, s.TimingGood → s.StationsGood → step s = .next t → t.StationsGood

/-! ### Captures and clock models -/

/-- R44: a selected edge on CAPm in LOCKED, HOLDOVER or SLEWING adds an entry with the capture sequence and the network µs as
the newest of at most 8 and raises the counter modulo 256; in FREE or ARMED it is ignored. An edge that the strap does not
select does nothing (log 17). -/
def Obligations.CapturePulseMakesAnEntry : Prop :=
  ∀ (s : State) (m : Slot), s.inReset = false →
    let c := (s.ctx m).capture
    (∀ edge : Edge, edge ≠ s.straps.captureEdge → exec (.capturePulse m edge) s = .next s)
      ∧ (s.timebase.discipline ∈ ([.free, .armed] : List Discipline) →
        exec (.capturePulse m s.straps.captureEdge) s = .next s)
      ∧ (s.timebase.discipline ∈ ([.locked, .holdover, .slewing] : List Discipline) →
          exec (.capturePulse m s.straps.captureEdge) s = .next
            { s with contexts := s.contexts.set m { s.ctx m with capture :=
              ⟨(if c.ring.length < 8 then c.ring else c.ring.tail) ++ [⟨c.nextSeq, s.timebase.us⟩],
                (c.nextSeq + 1) % 256⟩ } })

/-- R64: an extended stamp shares the stamp's low 40 bits, no other such value is nearer the reference, and of two equally
near the larger is taken. -/
def Obligations.ExtendedStampIsNearest : Prop :=
  ∀ (raw : Nat) (r : Int), raw < 2 ^ 40 →
    (extendStamp raw r - raw) % 2 ^ 40 = 0
      ∧ ∀ j : Int,
          (extendStamp raw r - r).natAbs ≤ ((raw : Int) + j * 2 ^ 40 - r).natAbs
            ∧ ((extendStamp raw r - r).natAbs = ((raw : Int) + j * 2 ^ 40 - r).natAbs →
                (raw : Int) + j * 2 ^ 40 ≤ extendStamp raw r)

/-- R54: the selected entry of a history has the least delay, and is the newest of those that share it. -/
def Obligations.SelectedEntryIsTheNewestOfLeastDelay : Prop :=
  ∀ h : List HistoryEntry, h ≠ [] →
    ∃ (older newer : List HistoryEntry) (e : HistoryEntry), h = older ++ e :: newer ∧ selectEntry h = some e
      ∧ (∀ x ∈ older, e.delay ≤ x.delay) ∧ ∀ x ∈ newer, e.delay < x.delay

/-- R52 and R55 with the step test of R51: a probe more than twice the step limit from the active model's prediction restarts
the clock of its station at once; a probe of a station without a model becomes its first model. -/
def Obligations.ClockStepAndFirstModel : Prop :=
  ∀ (r : Station) (p : Probe) (params : Params) (part : PartState),
    let entry : HistoryEntry := ⟨p.t2, p.offset, p.delay⟩
    let probes := min 65535 (r.counters.probesAccepted + 1)
    (∀ a : ActiveModel, r.active = some a →
        2 * params.stepLimit <
          (p.offset - (a.offset + 2 * roundDiv (a.drift * ((p.t2 : Int) - a.reference)) 1000000000)).natAbs →
        r.processProbe p params part = { r with
          history := [entry]
          anchor := some ⟨p.t2, p.offset⟩
          active := some ⟨p.offset, a.drift, p.t2, p.delay, (a.revision + 1) % 256, false⟩
          staged := none
          horizon := some p.t3
          counters := { r.counters with
            probesAccepted := probes, steps := min 65535 (r.counters.steps + 1) }
          state := if r.state = .tracking then .acquiring else r.state })
      ∧ (r.active = none → r.history = [] →
          r.processProbe p params part = { r with
            history := [entry]
            active := some ⟨p.offset, 0, p.t2, p.delay, 1, false⟩
            anchor := some ⟨p.t2, p.offset⟩
            horizon := some (max (r.horizon.getD 0) p.t3)
            counters := { r.counters with probesAccepted := probes } })

/-- 03 section 3.4 (R53, R56 to R59, R33): a probe that declares no step and moves the selection stages a model on the
selected entry; over a span long enough the drift is computed from the anchor and smoothed, the anchor moves, the estimated
flag is set and ACQUIRING becomes TRACKING. In RUN the model is held; in SETUP it is made active at once. A probe that leaves
the selection where it was changes neither model nor anchor. -/
def Obligations.NewReferenceStagesAModel : Prop :=
  ∀ (r : Station) (p : Probe) (params : Params) (a : ActiveModel) (anchor : Anchor) (sel : HistoryEntry),
    r.active = some a → r.anchor = some anchor →
    (p.offset - (a.offset + 2 * roundDiv (a.drift * ((p.t2 : Int) - a.reference)) 1000000000)).natAbs
      ≤ 2 * params.stepLimit →
    selectEntry ((if r.history.length < 8 then r.history else r.history.tail) ++ [⟨p.t2, p.offset, p.delay⟩])
      = some sel →
    let entered : Station := { r with
      history := (if r.history.length < 8 then r.history else r.history.tail) ++ [⟨p.t2, p.offset, p.delay⟩]
      horizon := some (max (r.horizon.getD 0) p.t3)
      counters := { r.counters with probesAccepted := min 65535 (r.counters.probesAccepted + 1) } }
    let reference := (r.staged.map StagedModel.reference).getD a.reference
    let base := (r.staged.map StagedModel.drift).getD a.drift
    let span := (sel.t2 : Int) - anchor.t2
    let raw := max (-200000) (min 200000 (((sel.offset - anchor.offset) * 1000000000).tdiv (2 * span)))
    (sel.t2 = reference → ∀ part : PartState, r.processProbe p params part = entered)
      ∧ (sel.t2 ≠ reference →
          r.processProbe p params .setup = (r.processProbe p params .run).applyStaged
            ∧ (span < 1000000 * params.minDriftSpan →
                r.processProbe p params .run =
                  { entered with staged := some ⟨sel.offset, base, sel.t2, sel.delay⟩ })
            ∧ (1000000 * params.minDriftSpan ≤ span →
                r.processProbe p params .run = { entered with
                  anchor := some ⟨sel.t2, sel.offset⟩
                  active := some { a with estimated := true }
                  state := if r.state = .acquiring then .tracking else r.state
                  staged := some
                    ⟨sel.offset, base + (raw - base).tdiv (2 ^ params.smoothing), sel.t2, sel.delay⟩ }))

/-! ### Correction and intake -/

/-- 04 section 4.5 (R71, R72): the fragments of a corrected block stand in ascending windows, at most 8 of them, each with at
least one sample and with its first and last sample in its window; their counts sum to the block's count and each first index
is the sum of the counts before it. L is above 0 and the drift within ±200,000 ppb, as TimingStaysGood and StationsStayGood
keep them. -/
def Obligations.FragmentsPartitionTheBlock : Prop :=
  ∀ (s : State) (m : Slot) (n : StationNo) (rec : IntakeRecord) (capture : Nat) (c : Corrected),
    0 < s.params.windowLength →
    (∀ a ∈ (s.station n).active, -200000 ≤ a.drift ∧ a.drift ≤ 200000) →
    correct s m n rec capture = .ok c →
      (c.fragments.map Prod.fst).Pairwise (· < ·)
        ∧ c.fragments.length ≤ 8
        ∧ (c.fragments.map fun wf => wf.2.count).sum = rec.count
        ∧ ∀ (before after : List (Nat × Fragment)) (wf : Nat × Fragment), c.fragments = before ++ wf :: after →
            wf.2.firstIndex = (before.map fun x => x.2.count).sum
              ∧ 1 ≤ wf.2.count
              ∧ wf.2.firstTime / (1000000 * s.params.windowLength) = wf.1
              ∧ wf.2.lastTime / (1000000 * s.params.windowLength) = wf.1

/-- 00 section 0.6.4: round is the nearest integer, a half away from zero; 02 Table 2-2: the samples per second and the
nominal period of each rate code. 04 sections 4.2 to 4.7 (R63, R65 to R70, R72 to R75), for a BLOCK record of at least one
sample: the extended stamp, the corrected start and the network period by the station's mode, the sample times, and the
refusals OUT_OF_RANGE and SPAN in their order; otherwise the extended stamp, the last sample time, and in every fragment its
sample times and the record's and block's own fields: uncertainty, period deviation, revision and the five flags. R69 is
followed by its formula (log 24). L is above 0, the drift within ±200,000 ppb, and a PROBED station has its active model. -/
def Obligations.BlocksAreCorrectedByMode : Prop :=
  (∀ (x : Int) (b : Nat), 0 < b →
    2 * (roundDiv x b * b - x).natAbs ≤ b
      ∧ (2 * (roundDiv x b * b - x).natAbs = b → x.natAbs < (roundDiv x b * b).natAbs))
  ∧ ((List.range 10).map fun code => (samplesPerSecond code, nominalPeriod code)) =
      [(1, 1000000), (10, 100000), (20, 50000), (40, 25000), (50, 20000), (100, 10000), (200, 5000), (250, 4000),
        (500, 2000), (1000, 1000)]
  ∧ ∀ (s : State) (m : Slot) (n : StationNo) (rec : IntakeRecord) (capture : Nat) (a : ActiveModel),
    0 < s.params.windowLength → 0 < rec.count →
    (∀ x ∈ (s.station n).active, x = a ∧ -200000 ≤ x.drift ∧ x.drift ≤ 200000) →
    ((s.station n).config.mode = .probed → (s.station n).active = some a) →
    let r := s.station n
    let mode := r.config.mode
    let period := nominalPeriod r.config.rateCode
    let x : Int := match mode with
      | .satellite => extendStamp rec.stamp s.timebase.us
      | .probed => (match r.horizon with | some h => extendStamp rec.stamp h | none => rec.stamp)
      | .arrival => 0
    let start : Int := match mode with
      | .satellite => x + r.config.fixedDelay
      | .probed => x + roundDiv a.offset 2 + roundDiv ((x - a.reference) * a.drift) 1000000000 + r.config.fixedDelay
      | .arrival => (capture : Int) - r.config.linkLatency - rec.count * period + r.config.fixedDelay
    let deviation : Int := if mode = .probed then roundDiv (period * a.drift * 65536) 1000000000 else 0
    let time (i : Nat) : Int := start + (i * (period * 65536 + deviation) + 32768) / 65536
    let outOfRange := ¬(0 ≤ x ∧ x < 2 ^ 56) ∨ start < 0 ∨ 2 ^ 56 ≤ time (rec.count - 1)
    let windows := ((List.range rec.count).map fun i => (time i).toNat / (1000000 * s.params.windowLength)).dedup.length
    let hub := hubTerm s.timebase s.params.hubGrowth
    let uncertainty : Nat := match mode with
      | .satellite => s.params.satBase + (rec.seconds * s.params.satGrowth + 999) / 1000 + hub
      | .probed => (a.delay + 1) / 2 + ((x - a.reference).natAbs * s.params.probeGrowth + 999999999) / 1000000000 + hub
      | .arrival => r.config.jitterBound + hub
    (outOfRange → correct s m n rec capture = .error .outOfRange)
      ∧ (¬outOfRange → 8 < windows → correct s m n rec capture = .error .span)
      ∧ (¬outOfRange → windows ≤ 8 →
          ∃ c : Corrected, correct s m n rec capture = .ok c
            ∧ c.stamp = (if mode = .arrival then none else some x.toNat)
            ∧ (c.lastTime : Int) = time (rec.count - 1)
            ∧ ∀ wf ∈ c.fragments, wf.2 =
                { station := n, source := m, handle := rec.tag, sequence := rec.sequence
                  firstIndex := wf.2.firstIndex
                  count := wf.2.count
                  firstTime := (time wf.2.firstIndex).toNat
                  lastTime := (time (wf.2.firstIndex + wf.2.count - 1)).toNat
                  uncertainty := min 16777215 uncertainty
                  deviation := deviation
                  revision := if mode = .probed then a.revision else 0
                  loose := false
                  overlap := false
                  acquiring := decide (mode = .probed) && !a.estimated
                  hubHoldover := decide (s.timebase.discipline ≠ .locked)
                  satUnlocked := decide (mode = .satellite) && !rec.lockFlag
                  satStale := decide (mode = .satellite ∧ s.params.staleLimit ≤ rec.seconds)
                  arrival := decide (mode = .arrival) })

/-- R79, with HOLD by R81: a commit to a queue of fewer than 16 records stores word 7, joins words 0 to 7 to the queue as its
newest record and sets HOLD at the threshold, answered OK; to a full queue it changes nothing and is answered RETRY. -/
def Obligations.CommitJoinsTheQueue : Prop :=
  ∀ (s : State) (m : Slot) (v : Word), s.inReset = false →
    let i := (s.ctx m).intake
    (i.queue.length < 16 →
        exec (.commit m v) s = .next { s with
          bus := ⟨.ok, none⟩
          contexts := s.contexts.set m { s.ctx m with intake := { i with
            staging := i.staging.set 7 v
            queue := i.queue ++ [i.staging.set 7 v]
            hold := i.hold || decide (i.threshold ≤ i.queue.length + 1) } } })
      ∧ (16 ≤ i.queue.length → exec (.commit m v) s = .next { s with bus := ⟨.retry, none⟩ })

/-- 05 section 5.4 (R83) and, for an idle Intake Unit, log 6: the slot served is the first eligible one counting up from the
round-robin pointer and round from 3 to 0, and the pointer is then set to the slot after it; with no slot eligible a taking
does nothing. -/
def Obligations.RoundRobinServesTheNextEligible : Prop :=
  ∀ s : State, s.inReset = false →
    let eligible (k : Slot) := (s.ctx k).intake.queue ≠ [] ∧ (s.ctx k).intake.stopped = false
    ((∀ k : Slot, ¬eligible k) → exec .recordTaking s = .next s)
      ∧ ∀ j : Slot, eligible (s.rrPointer + j) → (∀ i : Slot, i < j → ¬eligible (s.rrPointer + i)) →
          s.servedSlot = some (s.rrPointer + j)
            ∧ ∃ t : State, exec .recordTaking s = .next t ∧ t.rrPointer = s.rrPointer + j + 1

/-- 05 sections 5.5 to 5.9 (R84, R85, R87 to R90, R92, R93), with 11 Tables 11-1 and 11-2 (R176) and 03 section 3.2 (R45). A
record is well formed when the high half of word 7 is 0, the sum of the half-words is 0 modulo 65,536, and the kind is 1 or
2; its fields stand where the tables give them; a capture lookup gives the time of the entry that carries the number. The
checks of a BLOCK record in the order of Table 5-1, steps 2 to 12, and of a PROBE record in the order of R93, give it the
outcome of the first that fails. A taking that finds a MALFORMED record stops the slot and keeps the record; a taking that
refuses a record removes it, counts the refusal at the slot and at the station named, and writes the last-refusal record.
Nothing else changes but the pointer, HOLD with INTAKE OPEN on an emptied queue (R81), and, for POOL_FULL, what the reclaims
already made have changed. -/
def Obligations.RecordsAreJudgedInOrderAndRefused : Prop :=
  (∀ rec : IntakeRecord,
    let w (k : Fin 8) : Nat := (rec[k]).toNat
    let sound := w 7 < 65536 ∧ ((List.finRange 8).map fun k => w k / 65536 + w k % 65536).sum % 65536 = 0
    (rec.wellFormedKind = some .block ↔ sound ∧ w 0 / 2 ^ 28 = 1)
      ∧ (rec.wellFormedKind = some .probe ↔ sound ∧ w 0 / 2 ^ 28 = 2)
      ∧ (rec.station = w 0 / 65536 % 256 ∧ rec.rateCode = w 0 / 2 ^ 24 % 16 ∧ rec.sequence = w 0 % 65536
        ∧ rec.count = w 1 / 65536 ∧ rec.lockFlag = decide (w 1 / 32768 % 2 = 1) ∧ rec.seconds = w 1 % 32768
        ∧ rec.captureSeq = w 2 / 2 ^ 24 ∧ rec.stamp = 2 ^ 32 * (w 2 % 256) + w 3)
      ∧ (rec.sendSeq = w 0 / 256 % 256 ∧ rec.receiveSeq = w 0 % 256
        ∧ rec.rawT2 = 2 ^ 32 * (w 1 / 256 % 256) + w 2 ∧ rec.rawT3 = 2 ^ 32 * (w 1 % 256) + w 3)
      ∧ rec.tag = rec[4])
  ∧ (∀ (c : Capture) (q t : Nat), c.lookup q = some t ↔
      ∃ older newer : List CaptureEntry, c.ring = older ++ ⟨q, t⟩ :: newer ∧ ∀ e ∈ older, e.seq ≠ q)
  ∧ (∀ (s : State) (m : Slot) (rec : IntakeRecord), s.RingGood →
    (127 < rec.station →
        s.judgeBlock m rec = .error (if s.part = .setup then .state else .notOwner)
          ∧ s.judgeProbe m rec = .error .notOwner)
      ∧ ∀ n : StationNo, rec.station = n.val →
          let r := s.station n
          let capture := (s.ctx m).capture.lookup rec.captureSeq
          let classed (c : Corrected) : Except RefusalCode (StationNo × Corrected) :=
            if ∃ wf ∈ c.fragments, ∃ w ∈ s.held, w.number = wf.1
                ∧ ∃ f ∈ w.fragments, f.station = n ∧ f.sequence = rec.sequence then .error .duplicate
            else .ok (n, c)
          s.judgeBlock m rec =
            (if s.part = .setup then .error .state
            else if s.owns m n = false then .error .notOwner
            else if r.state = .disabled then .error .disabled
            else if rec.rateCode ≠ r.config.rateCode then .error .rate
            else if rec.count = 0 ∨ 512 < rec.count then .error .count
            else if r.config.mode = .arrival ∧ capture = none then .error .staleCapture
            else if r.config.mode = .probed ∧ r.active = none then .error .noModel
            else match correct s m n rec (if r.config.mode = .arrival then capture.getD 0 else 0) with
              | .error code => .error code
              | .ok c =>
                if (s.timebase.us / (1000000 * s.params.windowLength) + 2) * (1000000 * s.params.windowLength)
                    ≤ c.lastTime then .error .future
                else match r.sequence with
                  | none => classed c
                  | some q =>
                    let d := (((q.last : Int) - rec.sequence) % 65536).toNat
                    if d = 0 then .error .duplicate
                    else if d ≤ 32 then (if rec.sequence ∈ q.seen then .error .duplicate else classed c)
                    else if d ≤ 32767 then .error .staleSeq
                    else classed c)
          ∧ s.judgeProbe m rec =
            (if s.owns m n = false then .error .notOwner
            else if r.state = .disabled then .error .disabled
            else if r.config.mode ≠ .probed then .error .mode
            else match (s.ctx m).capture.lookup rec.sendSeq, (s.ctx m).capture.lookup rec.receiveSeq with
              | some t1, some t4 =>
                let t2 : Int := match r.horizon with | some h => extendStamp rec.rawT2 h | none => rec.rawT2
                let t3 : Int := extendStamp rec.rawT3 t2
                let delay : Int := ((t4 : Int) - t1) - (t3 - t2)
                if ¬(0 ≤ t2 ∧ t2 < 2 ^ 56) ∨ ¬(0 ≤ t3 ∧ t3 < 2 ^ 56) then .error .badProbe
                else if t4 < t1 ∨ t3 < t2 ∨ delay < 0 then .error .badProbe
                else if (s.params.maxDelay : Int) < delay then .error .probeDelay
                else .ok (n, ⟨t2.toNat, t3.toNat, ((t1 : Int) - t2) + ((t4 : Int) - t3), delay.toNat⟩)
              | _, _ => .error .staleCapture))
  ∧ ∀ (s : State) (m : Slot) (rec : IntakeRecord) (rest : List IntakeRecord), s.inReset = false →
    s.servedSlot = some m → (s.ctx m).intake.queue = rec :: rest →
    let c := s.ctx m
    let opened : Attention :=
      if rest = [] ∧ c.intake.hold = true then { c.attention with pending := c.attention.pending ||| 0x10#6 }
      else c.attention
    let left (kind : RecordKind) (code : RefusalCode) : Intake := { c.intake with
      queue := rest
      hold := c.intake.hold && decide (rest ≠ [])
      refused := min 65535 (c.intake.refused + 1)
      lastRefusal := some (.refused code kind rec.station rec.tag) }
    let counted (f : StationCounters → StationCounters) : Vector Station 128 :=
      Vector.ofFn fun n : Fin 128 =>
        if n.val = rec.station then { s.station n with counters := f (s.station n).counters } else s.station n
    let blockCount (code : RefusalCode) (x : StationCounters) : StationCounters := { x with
      refusals := min 65535 (x.refusals + 1)
      duplicates := if code = .duplicate then min 65535 (x.duplicates + 1) else x.duplicates }
    s.popQueue m = { s with contexts := s.contexts.set m { c with
        intake := { c.intake with queue := rest, hold := c.intake.hold && decide (rest ≠ []) }
        attention := opened } }
      ∧ (rec.wellFormedKind = none →
        exec .recordTaking s = .next { s with
          rrPointer := m + 1
          contexts := s.contexts.set m { c with
            intake := { c.intake with
              stopped := true, lastRefusal := some (.malformed (rec.word 0) (rec.word 1) (rec.word 2)) }
            attention := { c.attention with pending := c.attention.pending ||| 0x01#6 } } })
      ∧ (∀ code : RefusalCode, rec.wellFormedKind = some .block → (s.popQueue m).judgeBlock m rec = .error code →
          exec .recordTaking s = .next { s with
            rrPointer := m + 1
            stations := counted (blockCount code)
            contexts := s.contexts.set m { c with intake := left .block code, attention := opened } })
      ∧ (∀ code : RefusalCode, rec.wellFormedKind = some .probe → (s.popQueue m).judgeProbe m rec = .error code →
          exec .recordTaking s = .next { s with
            rrPointer := m + 1
            stations := counted fun x => { x with
              refusals := min 65535 (x.refusals + 1), probesRefused := min 65535 (x.probesRefused + 1) }
            contexts := s.contexts.set m { c with intake := left .probe code, attention := opened } })
      ∧ (∀ (n : StationNo) (k : Corrected) (s1 : State), rec.wellFormedKind = some .block →
          (s.popQueue m).judgeBlock m rec = .ok (n, k) → (s.popQueue m).placeFragments k.fragments = (s1, none) →
          exec .recordTaking s = .next { s1 with
            rrPointer := m + 1
            stations := counted (blockCount .poolFull)
            contexts := s1.contexts.set m { s1.ctx m with intake := left .block .poolFull } })

/-- 05 section 5.8 (R90, R91): a BLOCK record that passes every check and is placed counts at its slot as ACCEPTED when no
fragment is dropped, LATE when none is entered, PART_LATE otherwise; its sequence number is marked, the horizon raised to the
extended stamp, a SATELLITE station's lock fields copied; when a fragment was entered the station's blocks-accepted counter
and last arrival follow and a SILENT station returns to service. The windows, readers and flags are those that the placement
left (s1), and nothing else changes but the pointer. -/
def Obligations.PlacedBlockHasItsOutcome : Prop :=
  ∀ (s : State) (m : Slot) (rec : IntakeRecord) (rest : List IntakeRecord) (n : StationNo) (k : Corrected)
    (s1 : State) (entered dropped : Nat),
    s.inReset = false → s.StationsGood → s.servedSlot = some m → (s.ctx m).intake.queue = rec :: rest →
    rec.wellFormedKind = some .block → (s.popQueue m).judgeBlock m rec = .ok (n, k) →
    (s.popQueue m).placeFragments k.fragments = (s1, some (entered, dropped)) →
    let i := (s.ctx m).intake
    let r := s.station n
    ∃ t : State, exec .recordTaking s = .next t
      ∧ WindowStep { s with
          rrPointer := m + 1
          stations := t.stations
          contexts := s.contexts.set m { s.ctx m with intake := (t.ctx m).intake } } t
      ∧ t = { s1 with
          rrPointer := m + 1
          stations := t.stations
          contexts := s1.contexts.set m { s1.ctx m with intake := (t.ctx m).intake } }
      ∧ entered + dropped = k.fragments.length
      ∧ (t.ctx m).intake = { i with
          queue := rest
          hold := i.hold && decide (rest ≠ [])
          accepted := if entered ≠ 0 ∧ dropped = 0 then min 65535 (i.accepted + 1) else i.accepted
          partLate := if entered ≠ 0 ∧ dropped ≠ 0 then min 65535 (i.partLate + 1) else i.partLate
          late := if entered = 0 then min 65535 (i.late + 1) else i.late }
      ∧ (∀ x : StationNo, x ≠ n → t.station x = s.station x)
      ∧ t.station n = { r with
          sequence := some (markSequence r.sequence rec.sequence).1
          horizon := match k.stamp with | some x => some (max (r.horizon.getD 0) x) | none => r.horizon
          lastLock := if r.config.mode = .satellite then rec.lockFlag else r.lastLock
          lastSeconds := if r.config.mode = .satellite then rec.seconds else r.lastSeconds
          lastArrival := if entered = 0 then r.lastArrival else s.timebase.us
          state :=
            if entered ≠ 0 ∧ r.state = .silent then
              (if r.config.mode = .probed ∧ ∀ a ∈ r.active, a.estimated = false then .acquiring else .tracking)
            else r.state
          counters := { r.counters with
            blocksAccepted :=
              if entered = 0 then r.counters.blocksAccepted else min 65535 (r.counters.blocksAccepted + 1)
            fragmentsLate := min 65535 (r.counters.fragmentsLate + dropped)
            sequenceGaps := min 65535 (r.counters.sequenceGaps + (markSequence r.sequence rec.sequence).2) } }

/-- 03 section 3.3 and 05 section 5.9 (R48, R49, R93): a PROBE record of an owned, enabled PROBED station whose captures are
held, whose stamps extend into the range of network time, and whose times are in order within the max delay is accepted: the
Clock Model Unit processes the probe with θ_half and δ, and the slot's probes-accepted counter rises. -/
def Obligations.AcceptedProbeIsProcessed : Prop :=
  ∀ (s : State) (m : Slot) (rec : IntakeRecord) (rest : List IntakeRecord) (n : StationNo) (t1 t2 t3 t4 : Nat),
    s.inReset = false → s.servedSlot = some m → (s.ctx m).intake.queue = rec :: rest →
    rec.wellFormedKind = some .probe → rec.station = n.val → s.owns m n = true →
    (s.station n).state ≠ .disabled → (s.station n).config.mode = .probed →
    (s.ctx m).capture.lookup rec.sendSeq = some t1 → (s.ctx m).capture.lookup rec.receiveSeq = some t4 →
    (t2 : Int) =
      (match (s.station n).horizon with | some h => extendStamp rec.rawT2 h | none => (rec.rawT2 : Int)) →
    (t3 : Int) = extendStamp rec.rawT3 t2 → t2 < 2 ^ 56 → t3 < 2 ^ 56 → t1 ≤ t4 → t2 ≤ t3 →
    t3 - t2 ≤ t4 - t1 → t4 - t1 - (t3 - t2) ≤ s.params.maxDelay →
    let c := s.ctx m
    let probe : Probe := ⟨t2, t3, ((t1 : Int) - t2) + ((t4 : Int) - t3), t4 - t1 - (t3 - t2)⟩
    exec .recordTaking s = .next { s with
      rrPointer := m + 1
      stations := s.stations.set n ((s.station n).processProbe probe s.params s.part)
      contexts := s.contexts.set m { c with
        intake := { c.intake with
          queue := rest
          hold := c.intake.hold && decide (rest ≠ [])
          probesAccepted := min 65535 (c.intake.probesAccepted + 1) }
        attention :=
          if rest = [] ∧ c.intake.hold = true then { c.attention with pending := c.attention.pending ||| 0x10#6 }
          else c.attention } }

/-- R82 and R86: SET THRESHOLD takes 4, 8, 12 or 15, setting HOLD when the queue is at or above it and keeping a set HOLD,
and completes BAD_ARG for any other count; INTAKE RESET empties the queue and the staging words, makes the intake ACTIVE and
clears HOLD, raising INTAKE OPEN if it was set, and keeps everything else. -/
def Obligations.ThresholdAndIntakeReset : Prop :=
  ∀ (s : State) (m : Slot), s.Ready m →
    let c := s.ctx m
    let count := (s.arg m 0).toNat
    (count ∉ [4, 8, 12, 15] → exec (.setThreshold m) s = .next (s.answered m 10 .badArg Values.zero))
      ∧ (count ∈ [4, 8, 12, 15] →
          exec (.setThreshold m) s = .next
            (State.answered
              { s with contexts := s.contexts.set m { c with intake := { c.intake with
                  threshold := count, hold := c.intake.hold || decide (count ≤ c.intake.queue.length) } } }
              m 10 .ok Values.zero))
      ∧ exec (.intakeReset m) s = .next
          (State.answered
            { s with contexts := s.contexts.set m { c with
                intake := { c.intake with
                  queue := [], staging := Vector.replicate 8 0, stopped := false, hold := false }
                attention :=
                  if c.intake.hold then { c.attention with pending := c.attention.pending ||| 0x10#6 }
                  else c.attention } }
            m 9 .ok Values.zero)

/-- 05 sections 5.2, 5.3, 5.10 and 03 section 3.2 (R45, R80, R81, R82, R94), 07 section 7.3 and 08 section 8.2 (R125, R140):
every step keeps the queues within 16 records with HOLD and STOPPED only on a queue that holds one, the rings within 8
entries, and CLOSED pending exactly while a notice queue of at most 8 holds a notice. -/
def Obligations.QueuesAndFlagsStayGood : Prop :=
  ∀ s t : State, step s = .next t →
    (s.IntakesGood → t.IntakesGood) ∧ (s.NoticesGood → t.NoticesGood)

/-! ### Windows -/

/-- 06 sections 6.4, 6.5 and 6.8 (R102, R106 to R110, R117, R135), with the loss of cursors of R132: a reclaim of a CLOSED
window frees it with its losses at the slots it owed (State.losing). The pool has 4096 fragment records, and a list stands in
the order of station, first sample time and sequence number. Placement of a fragment list counts the fragments whose window
is OPEN and reclaims the CLOSED windows of lowest number, no more than needed, until that many fragment records are free;
without them it is POOL_FULL and nothing is entered. Otherwise each fragment in turn is entered in its window if that is OPEN
(Window.entered), which may close it, and is dropped otherwise, its station's fragments-late counter raised. -/
def Obligations.PlacementReclaimsEntersAndDrops : Prop :=
  (∀ (s : State) (w : Window), s.RingGood → w ∈ s.held → w.isOpen = false → s.reclaim w.number = s.losing w)
    ∧ (∀ s : State, s.freeFragments = 4096 - (s.held.map fun w => w.fragments.length).sum)
    ∧ (∀ f g : Fragment, f.before g = true ↔
        f.station < g.station ∨ (f.station = g.station ∧ (f.firstTime < g.firstTime
          ∨ (f.firstTime = g.firstTime ∧ f.sequence ≤ g.sequence))))
    ∧ (∀ (s : State) (list : List (Nat × Fragment)), s.RingGood →
        let need := list.countP fun wf => s.holdsOpen wf.1
        ∃ lost kept : List Window, s.closedAscending = lost ++ kept
          ∧ (∀ before after : List Window, lost = before ++ after → after ≠ [] →
              (before.foldl State.losing s).freeFragments < need)
          ∧ let u := lost.foldl State.losing s
            let placed := list.foldl State.placeOne (u, 0, 0)
            (u.freeFragments < need → kept = [] ∧ s.placeFragments list = (u, none))
              ∧ (need ≤ u.freeFragments → s.placeFragments list = (placed.1, some placed.2)))
    ∧ ∀ (s : State) (n : Nat) (f : Fragment) (entered dropped : Nat), s.RingGood →
        let r := s.station f.station
        (s.holdsOpen n = true →
            State.placeOne (s, entered, dropped) (n, f) =
              (s.closing fun w =>
                  if w.number = n then
                    w.entered f s.params.tolerance (s.params.windowLength * samplesPerSecond r.config.rateCode)
                      s.readersEnrolled
                  else w,
                entered + 1, dropped))
          ∧ (s.holdsOpen n = false →
              State.placeOne (s, entered, dropped) (n, f) =
                (s.withRecordOf f.station { r with counters := { r.counters with
                    fragmentsLate := min 65535 (r.counters.fragmentsLate + 1) } },
                  entered, dropped + 1))

/-- 06 sections 6.6 and 6.7 (R111, R113, R114, R125): the expiry event of a window held OPEN that waits (log 4), at its
expiry time, sets its end mark and closes it, COMPLETE when every expected station is covered and EXPIRY otherwise; its
pending set is the slots enrolled, each of which is handed one notice, queued below 8 and dropped with the overflow flag at
8, and CLOSED is raised where the queue was empty. Of a window not held OPEN the event changes nothing. -/
def Obligations.ExpiryClosesAnOpenWindow : Prop :=
  ∀ (s : State) (n : Nat), s.inReset = false → s.RingGood → s.timebase.expiryDue = some n →
    let u : State := { s with timebase := { s.timebase with expiryDue := none } }
    (s.holdsOpen n = false → exec .expiryEvent s = .next u)
      ∧ ∀ w : Window, s.findWindow n = some w → w.isOpen = true →
          (n + 1) * (1000000 * s.params.windowLength) + 1000000 * s.params.holdOpen ≤ s.timebase.us →
          let reason : CloseReason := if ∀ x ∈ w.expected, x ∈ w.covered then .complete else .expiry
          let notice : Notice := ⟨n, reason, w.fragments.length, w.expected.length, w.covered.length⟩
          ∃ t : State, exec .expiryEvent s = .next t ∧ WindowStep u t
            ∧ t.held = s.held.map (fun x =>
                if x.number = n then
                  { x with endMark := true, closed := some reason, pending := s.readersEnrolled }
                else x)
            ∧ ∀ m : Slot,
                let r := (s.ctx m).reader
                let a := (s.ctx m).attention
                (r.enrolled = false → t.ctx m = s.ctx m)
                  ∧ (r.enrolled = true → r.notices.length < 8 →
                      (t.ctx m).reader = { r with notices := r.notices ++ [notice] }
                        ∧ (t.ctx m).attention.pending =
                            (if r.notices = [] then a.pending ||| 0x08#6 else a.pending))
                  ∧ (r.enrolled = true → 8 ≤ r.notices.length →
                      (t.ctx m).reader = { r with overflow := true } ∧ (t.ctx m).attention = a)

/-- 06 sections 6.2, 6.4 to 6.9 (R101, R102, R104 to R108, R112, R115 to R118): every step keeps the ring in form: no window
number held twice, at most 4096 fragments in use, sets without repeats and fragment lists in the order of R108, no pending
set on an OPEN window, and no OPEN window in SETUP. -/
def Obligations.RingStaysGood : Prop :=
  ∀ s t : State, s.RingGood → step s = .next t → t.RingGood

/-- 06 sections 6.3, 6.6 and 6.9, 10 section 10.2 (R104, R111, R112, R117, R118, R165, R166): a window is opened in the
lowest FREE slot, or in the slot of the lowest CLOSED window, reclaimed first, when none is FREE. A boundary event of window
b that waits (log 4), taken in RUN, makes the end checks of the OPEN windows below b and opens b + 1 if no slot holds it.
START completes STATE, STATE or BAD_CONFIG by the first of its checks that fails, and otherwise enters RUN and opens c0 and
c0 + 1, c0 being the larger of the current window and one above the highest held; taken while the boundary event of the
present network µs waits, it counts the window that ends there as the current one. -/
def Obligations.WindowsOpenAtStartAndAtBoundaries : Prop :=
  (∀ (u : State) (n : Nat), u.RingGood →
      (∀ i : Fin 64, u.windows[i] = none → (∀ j : Fin 64, j < i → u.windows[j] ≠ none) →
          u.openWindow n = { u with windows := u.windows.set i (some (u.freshWindow n)) })
        ∧ ∀ (i : Fin 64) (w : Window), (∀ j : Fin 64, u.windows[j] ≠ none) → u.windows[i] = some w →
            w.isOpen = false → (∀ x ∈ u.held, x.isOpen = false → w.number ≤ x.number) →
            u.openWindow n = { u.losing w with windows := u.windows.set i (some (u.freshWindow n)) })
    ∧ (∀ (s : State) (b : Nat), s.inReset = false → s.RingGood → s.part = .run → s.timebase.boundaryDue = some b →
        let u : State := { s with
          timebase := { s.timebase with boundaryDue := none }, stations := vmap Station.atBoundary s.stations }
        let v := u.closing fun w => w.afterBoundary b s.timebase.us s.params s.readersEnrolled
        ((∃ w ∈ s.held, w.number = b + 1) → exec .boundaryEvent s = .next v)
          ∧ ((∀ w ∈ s.held, w.number ≠ b + 1) → exec .boundaryEvent s = .next (v.openWindow (b + 1))))
    ∧ ∀ (s : State) (m : Slot), s.Ready m → s.RingGood →
        let pair := (s.params.holdOpen + s.params.windowLength - 1) / s.params.windowLength + 4
        let valid := s.timebase.discipline ∈ ([.locked, .holdover, .slewing] : List Discipline)
        let now := if s.timebase.boundaryDue = none then s.timebase.us else s.timebase.us - 1
        let current := now / (1000000 * s.params.windowLength)
        (s.part = .run ∨ ¬valid → exec (.start m) s = .next (s.answered m 15 .state Values.zero))
          ∧ (s.part = .setup → valid → 64 < pair →
              exec (.start m) s = .next (s.answered m 15 .badConfig Values.zero))
          ∧ (s.part = .setup → valid → pair ≤ 64 →
              ∃ c0 : Nat, current ≤ c0 ∧ (∀ w ∈ s.held, w.number < c0)
                ∧ (c0 = current ∨ ∃ w ∈ s.held, c0 = w.number + 1)
                ∧ exec (.start m) s = .next
                    (State.answered ((State.openWindow { s with part := .run } c0).openWindow (c0 + 1)) m 15 .ok
                      ⟨BitVec.ofNat 32 c0, BitVec.ofNat 32 (c0 / 2 ^ 32), 0⟩))

/-- R167, with the closes of R115: HALT in SETUP completes STATE and changes nothing; in RUN every OPEN window is closed
FLUSH with the enrolled slots as its pending set, their notices handed in ascending window number as every close hands them
(State.closing), CLOSED windows stand, the part enters SETUP, and the result carries the number of windows closed. Nothing
else changes. -/
def Obligations.HaltFlushesEveryOpenWindow : Prop :=
  ∀ (s : State) (m : Slot), s.Ready m → s.RingGood →
    (s.part = .setup → exec (.halt m) s = .next (s.answered m 16 .state Values.zero))
      ∧ (s.part = .run →
          let flushed := s.closing fun w => if w.isOpen then w.shut .flush s.readersEnrolled else w
          exec (.halt m) s = .next
            (State.answered { flushed with part := .setup } m 16 .ok
              ⟨BitVec.ofNat 32 (s.held.filter Window.isOpen).length, 0, 0⟩))

/-! ### Readers -/

/-- R134: RELEASE of a window not held completes NO_WINDOW, of an OPEN one NOT_CLOSED, of a CLOSED one that does not owe the
caller NOT_PENDING, and changes nothing; otherwise the caller leaves the pending set, and a window whose set that empties is
freed, every cursor that stands on it becoming GONE. -/
def Obligations.ReleaseFreesTheLastOwed : Prop :=
  ∀ (s : State) (m : Slot), s.Ready m → s.RingGood →
    let n := (s.arg m 0).toNat + 2 ^ 32 * (s.arg m 1).toNat
    ((∀ w ∈ s.held, w.number ≠ n) → exec (.release m) s = .next (s.answered m 14 .noWindow Values.zero))
      ∧ ∀ w ∈ s.held, w.number = n →
          (w.isOpen = true → exec (.release m) s = .next (s.answered m 14 .notClosed Values.zero))
            ∧ (w.isOpen = false → m ∉ w.pending →
                exec (.release m) s = .next (s.answered m 14 .notPending Values.zero))
            ∧ (w.isOpen = false → m ∈ w.pending → (∃ k ∈ w.pending, k ≠ m) →
                ∃ t : State, exec (.release m) s = .next t
                  ∧ t = { (s.answered m 14 .ok ⟨s.arg m 0, s.arg m 1, 0⟩) with windows := t.windows }
                  ∧ t.held = s.held.map (fun x =>
                      if x.number = n then { x with pending := x.pending.filter (· != m) } else x))
            ∧ (w.isOpen = false → w.pending = [m] →
                ∃ t : State, exec (.release m) s = .next t
                  ∧ WindowStep (s.answered m 14 .ok ⟨s.arg m 0, s.arg m 1, 1⟩) t
                  ∧ t.held = s.held.filter (fun x => x.number != n)
                  ∧ ∀ k : Slot,
                      let c := (s.ctx k).reader.cursor
                      let stands := c.target = .window n ∧ (c.condition = .reading ∨ c.condition = .atEnd)
                      (t.ctx k).reader = { (s.ctx k).reader with
                          cursor := if stands then { c with condition := .gone } else c }
                        ∧ (t.ctx k).attention.pending =
                            ((s.answered m 14 .ok ⟨s.arg m 0, s.arg m 1, 1⟩).ctx k).attention.pending)

/-- R123 and 07 section 7.2 (R124, R116): ENROL sets the enrolment flag and says whether it was set before; WITHDRAW of an
enrolled slot clears it, frees exactly the windows that owe the caller alone, with the loss of the cursors that stand on them
(State.without), takes the slot out of every other pending set, and completes with the number freed; nothing else changes,
the caller's notices, latch and missed count among it. WITHDRAW of a slot not enrolled completes OK with 0 and changes
nothing. -/
def Obligations.EnrolAndWithdraw : Prop :=
  ∀ (s : State) (m : Slot), s.Ready m → s.RingGood →
    let r := (s.ctx m).reader
    exec (.enrol m) s = .next
        (State.answered
          { s with contexts := s.contexts.set m { s.ctx m with reader := { r with enrolled := true } } }
          m 11 .ok ⟨if r.enrolled then 1 else 0, 0, 0⟩)
      ∧ (r.enrolled = false → exec (.withdraw m) s = .next (s.answered m 12 .ok Values.zero))
      ∧ (r.enrolled = true →
          let owesAlone (w : Window) : Bool := decide (w.pending = [m])
          let left : State := { s with contexts := s.contexts.set m { s.ctx m with reader := { r with enrolled := false } } }
          let freed := left.without owesAlone
          exec (.withdraw m) s = .next
            (State.answered
              { freed with
                windows := vmap (Option.map fun w => { w with pending := w.pending.filter (· ≠ m) }) freed.windows }
              m 12 .ok ⟨BitVec.ofNat 32 (s.held.filter owesAlone).length, 0, 0⟩))

/-- R126 and R127, with the CLOSED flag of R140: a read of the pop word pops the oldest notice into the latch and returns it
with what is left and the overflow flag, clearing CLOSED when the queue becomes empty; of an empty queue it clears the latch
and returns the empty marker. A write to the pop word clears the overflow flag alone. -/
def Obligations.PopWordReadAndWrite : Prop :=
  ∀ (s : State) (m : Slot), s.inReset = false →
    let c := s.ctx m
    let r := c.reader
    (∀ (nt : Notice) (rest : List Notice), r.notices = nt :: rest →
        exec (.noticePop m) s = .next { s with
          bus := ⟨.ok, some (BitVec.ofNat 32 (1 <<< 31 ||| r.overflow.toNat <<< 30 ||| nt.reason.code <<< 28
            ||| rest.length <<< 24 ||| nt.expected <<< 8 ||| nt.covered))⟩
          contexts := s.contexts.set m { c with
            reader := { r with notices := rest, latch := some nt }
            attention :=
              if rest = [] then { c.attention with pending := c.attention.pending &&& 0x37#6 } else c.attention } })
      ∧ (r.notices = [] →
          exec (.noticePop m) s = .next { s with
            bus := ⟨.ok, some (if r.overflow then 0x40000000#32 else 0#32)⟩
            contexts := s.contexts.set m { c with reader := { r with latch := none } } })
      ∧ ∀ v : Word, exec (.overflowClear m v) s = .next { s with
          bus := ⟨.ok, none⟩
          contexts := s.contexts.set m { c with reader := { r with overflow := false } } }

/-- R132 and R133: a read of the cursor data port returns the word at the position of a window's manifest or of a station
snapshot and advances, becoming AT END at the length; it returns the end marker in AT END and NONE and the RECLAIMED marker
in GONE. A write sets the position, below the length READING and otherwise AT END at the length, and is ignored in GONE and
NONE. The words of a CLOSED window's manifest are those of R131 and Tables 11-9 and 11-10: eleven of the header, then six for
each fragment in the order of the list, every field at its place. -/
def Obligations.CursorPortReadAndWrite : Prop :=
  (∀ (w : Window) (p : Params) (reason : CloseReason), w.closed = some reason →
    let word (k : Nat) : Word := w.manifestWord p k
    word 0 = BitVec.ofNat 32 w.number
      ∧ word 1 = BitVec.ofNat 32 (w.number / 2 ^ 32 ||| reason.code <<< 8 ||| w.fragments.length <<< 16)
      ∧ word 2 = BitVec.ofNat 32 (w.expected.length ||| w.covered.length <<< 16)
      ∧ (∀ j i : Nat, j < 4 → i < 32 →
          ((word (3 + j)).getLsbD i = true ↔ ∃ n ∈ w.expected, n.val = 32 * j + i)
            ∧ ((word (7 + j)).getLsbD i = true ↔ ∃ n ∈ w.covered, n.val = 32 * j + i))
      ∧ ∀ (before after : List Fragment) (f : Fragment), w.fragments = before ++ f :: after →
          let k := 11 + 6 * before.length
          word k = BitVec.ofNat 32 (f.station.val ||| f.source.val <<< 7 ||| f.loose.toNat <<< 9 ||| f.overlap.toNat <<< 10
              ||| f.acquiring.toNat <<< 11 ||| f.hubHoldover.toNat <<< 12 ||| f.satUnlocked.toNat <<< 13
              ||| f.satStale.toNat <<< 14 ||| f.arrival.toNat <<< 15 ||| f.firstIndex <<< 16)
            ∧ word (k + 1) = f.handle
            ∧ word (k + 2) =
                BitVec.ofNat 32 (f.sequence ||| f.count <<< 16 ||| ((f.deviation / 2 ^ 32) % 8).toNat <<< 26)
            ∧ word (k + 3) = BitVec.ofNat 32 (f.firstTime - w.number * (1000000 * p.windowLength))
            ∧ word (k + 4) = BitVec.ofNat 32 (f.uncertainty ||| f.revision <<< 24)
            ∧ word (k + 5) = BitVec.ofInt 32 f.deviation)
  ∧ ∀ (s : State) (m : Slot), s.inReset = false →
    let r := (s.ctx m).reader
    let c := r.cursor
    let put (k : Cursor) (word : Option Word) : State := { s with
      bus := ⟨.ok, word⟩, contexts := s.contexts.set m { s.ctx m with reader := { r with cursor := k } } }
    let moved (pos length : Nat) : Cursor :=
      if pos < length then { c with position := pos, condition := .reading }
      else { c with position := length, condition := .atEnd }
    (c.condition ∈ ([.none, .atEnd] : List CursorCondition) →
        exec (.cursorRead m) s = .next { s with bus := ⟨.ok, some 0xFFFF0000#32⟩ })
      ∧ (c.condition = .gone → exec (.cursorRead m) s = .next { s with bus := ⟨.ok, some 0xFFFF0001#32⟩ })
      ∧ (∀ v : Word, c.condition ∈ ([.none, .gone] : List CursorCondition) →
          exec (.cursorPositionWrite m v) s = .next { s with bus := ⟨.ok, none⟩ })
      ∧ (∀ (n : Nat) (w : Window), c.target = .window n → s.findWindow n = some w →
          (c.condition = .reading →
              exec (.cursorRead m) s = .next
                (put (moved (c.position + 1) (11 + 6 * w.fragments.length)) (some (w.manifestWord s.params c.position))))
            ∧ ∀ v : Word, c.condition ∈ ([.reading, .atEnd] : List CursorCondition) →
                exec (.cursorPositionWrite m v) s = .next (put (moved v.toNat (11 + 6 * w.fragments.length)) none))
      ∧ ∀ n : StationNo, c.target = .station n →
          (∀ h : c.position < 16, c.condition = .reading →
              exec (.cursorRead m) s = .next (put (moved (c.position + 1) 16) (some c.snapshot[c.position])))
            ∧ ∀ v : Word, c.condition ∈ ([.reading, .atEnd] : List CursorCondition) →
                exec (.cursorPositionWrite m v) s = .next (put (moved v.toNat 16) none)

/-- R128 and R129, and 07 section 7.4 (R130): OPEN CURSOR of an unknown kind or of a station above 127 completes BAD_ARG and
leaves the cursor; of a CLOSED window it stands at position 0 with the fragment count and length as result; of an OPEN window
or one not held it leaves a cursor without target; of a station it takes the station's snapshot, whose sixteen words hold the
fields of Table 11-11, those of an absent part 0. The codes are those of Table 11-4. -/
def Obligations.OpenCursorReplacesTheCursor : Prop :=
  (([.satellite, .probed, .arrival] : List Mode).map Mode.code = [0, 1, 2]
    ∧ ([.disabled, .acquiring, .tracking, .silent] : List StationState).map StationState.code = [0, 1, 2, 3]
    ∧ ([.expiry, .complete, .flush] : List CloseReason).map CloseReason.code = [1, 2, 3])
  ∧ (∀ (r : Station) (n : StationNo),
    let present := r.pendingConfig.isSome.toNat <<< 16 ||| r.sequence.isSome.toNat <<< 17 ||| r.horizon.isSome.toNat <<< 18
      ||| r.active.isSome.toNat <<< 19 ||| r.staged.isSome.toNat <<< 20 ||| r.anchor.isSome.toNat <<< 21
    let horizon := r.horizon.getD 0
    let a := r.active.getD ⟨0, 0, 0, 0, 0, false⟩
    let c := r.counters
    r.snapshot n = #v[
      BitVec.ofNat 32 (n.val ||| r.state.code <<< 8 ||| r.config.mode.code <<< 10 ||| r.config.rateCode <<< 12 ||| present
        ||| a.estimated.toNat <<< 22 ||| r.history.length <<< 24),
      BitVec.ofNat 32 ((r.sequence.map SequenceState.last).getD 0 ||| r.lastSeconds <<< 16 ||| r.lastLock.toNat <<< 31),
      BitVec.ofNat 32 horizon, BitVec.ofNat 32 (horizon / 2 ^ 32),
      BitVec.ofInt 32 a.offset, BitVec.ofInt 32 (a.offset / 2 ^ 32),
      BitVec.ofNat 32 a.reference, BitVec.ofNat 32 (a.reference / 2 ^ 32),
      BitVec.ofInt 32 a.drift,
      BitVec.ofNat 32 (a.delay ||| a.revision <<< 24),
      BitVec.ofNat 32 r.lastArrival, BitVec.ofNat 32 (r.lastArrival / 2 ^ 32),
      BitVec.ofNat 32 (c.blocksAccepted ||| c.fragmentsLate <<< 16),
      BitVec.ofNat 32 (c.duplicates ||| c.sequenceGaps <<< 16),
      BitVec.ofNat 32 (c.refusals ||| c.probesAccepted <<< 16),
      BitVec.ofNat 32 (c.probesRefused ||| c.steps <<< 16)])
  ∧ ∀ (s : State) (m : Slot), s.Ready m →
    let kind := (s.arg m 0).toNat
    let number := (s.arg m 1).toNat + 2 ^ 32 * (s.arg m 2).toNat
    let put (c : Cursor) : State :=
      { s with contexts := s.contexts.set m { s.ctx m with reader := { (s.ctx m).reader with cursor := c } } }
    ((kind ≠ 1 ∧ kind ≠ 2) ∨ (kind = 2 ∧ 127 < number) →
        exec (.openCursor m) s = .next (s.answered m 13 .badArg Values.zero))
      ∧ (∀ n : StationNo, kind = 2 → number = n.val →
          exec (.openCursor m) s = .next
            (State.answered (put ⟨.station n, 0, .reading, (s.station n).snapshot n⟩) m 13 .ok
              ⟨BitVec.ofNat 32 n.val, BitVec.ofNat 32 (s.station n).state.code, 0⟩))
      ∧ (kind = 1 → s.findWindow number = none →
          exec (.openCursor m) s = .next (State.answered (put Cursor.none) m 13 .noWindow Values.zero))
      ∧ ∀ w : Window, kind = 1 → s.findWindow number = some w →
          (w.isOpen = true →
              exec (.openCursor m) s = .next (State.answered (put Cursor.none) m 13 .notClosed Values.zero))
            ∧ (w.isOpen = false →
                exec (.openCursor m) s = .next
                  (State.answered (put ⟨.window number, 0, .reading, Vector.replicate 16 0⟩) m 13 .ok
                    ⟨BitVec.ofNat 32 w.fragments.length, BitVec.ofNat 32 (11 + 6 * w.fragments.length), 0⟩))

/-! ### Flags -/

/-- 08 sections 8.3 and 8.4 (R141, R142, R143): a write to the flags word clears the flags written as one, CLOSED (bit 3)
excepted; a write to the enable mask word sets the six enables; in either case the line is asserted exactly while some flag
and its enable are both set. -/
def Obligations.FlagsAndEnablesAreWritten : Prop :=
  ∀ (s : State) (m : Slot) (v : Word), s.inReset = false →
    let c := s.ctx m
    (∃ p : BitVec 6,
        exec (.flagsWordWrite m v) s = .next { s with
            bus := ⟨.ok, none⟩
            contexts := s.contexts.set m { c with attention := { c.attention with pending := p } } }
          ∧ ∀ i : Nat, i < 6 →
              p.getLsbD i = (c.attention.pending.getLsbD i && (decide (i = 3) || !v.getLsbD i)))
      ∧ (∃ e : BitVec 6,
          exec (.enableMaskWrite m v) s = .next { s with
              bus := ⟨.ok, none⟩
              contexts := s.contexts.set m { c with attention := { c.attention with enables := e } } }
            ∧ ∀ i : Nat, i < 6 → e.getLsbD i = v.getLsbD i)
      ∧ (s.attn m = true ↔
          ∃ i : Nat, i < 6 ∧ c.attention.pending.getLsbD i = true ∧ c.attention.enables.getLsbD i = true)

/-- 08 section 8.4 (R144, R145): a POLL read reports the first cause, in the order of the bits, that is both pending and
enabled, and clears it unless it is CLOSED (bit 3); with none it reports code 0. The word carries the code in bits 11 to 8
and the flags as they stand after the read in bits 5 to 0. -/
def Obligations.PollReportsTheHighestCause : Prop :=
  ∀ (s : State) (m : Slot), s.inReset = false →
    let c := s.ctx m
    let both := c.attention.pending &&& c.attention.enables
    (both = 0 →
        exec (.pollRead m) s = .next { s with bus := ⟨.ok, some (BitVec.ofNat 32 c.attention.pending.toNat)⟩ })
      ∧ ∀ i : Nat, i < 6 → both.getLsbD i = true → (∀ j : Nat, j < i → both.getLsbD j = false) →
          ∃ p : BitVec 6, (∀ j : Nat, j < 6 →
              p.getLsbD j = (c.attention.pending.getLsbD j && (decide (j ≠ i) || decide (i = 3))))
            ∧ exec (.pollRead m) s = .next { s with
                bus := ⟨.ok, some (BitVec.ofNat 32 ((i + 1) * 256 + p.toNat))⟩
                contexts := s.contexts.set m { c with attention := { c.attention with pending := p } } }

/-! ### The shelf bus -/

/-- 09 sections 9.3 and 9.5 (R149, R151, R152, R153, R155): an address phase inside the window whose word address, slot,
direction and parity bit hold an even number of ones is not acknowledged and is recorded, outside the window nothing is
(WRITE counts as a one, log 22); a write whose lanes do not all have odd parity is answered DATA_ERR and recorded and nothing
else happens; a good write to the clear word empties the record. A word that the part returns goes with odd parity in each
lane. -/
def Obligations.ParityFailuresAreRecorded : Prop :=
  ∀ (s : State) (address : WordAddress) (m : Slot), s.inReset = false →
    let inside := 16384 * s.straps.base.toNat ≤ address.toNat ∧ address.toNat ≤ 16384 * s.straps.base.toNat + 16383
    let ones (d : Direction) (parity : Bool) : Nat :=
      (List.range 18).countP (fun i => address.getLsbD i) + (List.range 2).countP (fun i => m.val.testBit i)
        + (if d = .write then 1 else 0) + parity.toNat
    (∀ (d : Direction) (parity : Bool), inside → ones d parity % 2 = 0 →
        exec (.addressParityError ⟨address, parity⟩ m d) s = .next { s with
          bus := ⟨.noAck, none⟩, busError := oneMoreFailure s.busError .address address m d })
      ∧ (∀ (d : Direction) (parity : Bool), inside → ones d parity % 2 = 1 →
          exec (.addressParityError ⟨address, parity⟩ m d) s = .next s)
      ∧ (∀ (d : Direction) (parity : Bool), ¬inside →
          exec (.addressParityError ⟨address, parity⟩ m d) s = .next { s with bus := ⟨.noAck, none⟩ })
      ∧ (∀ (v : Word) (lanes : BitVec 4), inside →
          (∃ k : Nat, k < 4 ∧
            ((List.range 8).countP (fun i => v.getLsbD (8 * k + i)) + (lanes.getLsbD k).toNat) % 2 = 0) →
          exec (.registerWrite address m v lanes) s = .next { s with
            bus := ⟨.dataErr, none⟩, busError := oneMoreFailure s.busError .data address m .write })
      ∧ (∀ v : Word, exec (.busErrorClear m v) s = .next { s with bus := ⟨.ok, none⟩, busError := none })
      ∧ ∀ (a : BusAnswer) (v : Word), a.data = some v → ∃ lanes : BitVec 4, a.lanes = some lanes ∧ ∀ k : Nat, k < 4 →
          ((List.range 8).countP (fun i => v.getLsbD (8 * k + i)) + (lanes.getLsbD k).toNat) % 2 = 1

/-- 09 section 9.2 and 11 Table 11-12 (R78, R149, R154, R157), with log 9 for the words that have a row of their own: a write
with good lanes stores at a staging word 0 to 6 and at an argument word, is ignored with OK at every other word without a row
of its own, is not answered outside the window, and at a word with a row of its own is that row's command. -/
def Obligations.RegisterWriteReachesItsWord : Prop :=
  ∀ (s : State) (address : WordAddress) (m : Slot) (v : Word) (lanes : BitVec 4), s.inReset = false →
    (∀ k : Nat, k < 4 →
      ((List.range 8).countP (fun i => v.getLsbD (8 * k + i)) + (lanes.getLsbD k).toNat) % 2 = 1) →
    let c := s.ctx m
    let b := 16384 * s.straps.base.toNat
    let w := exec (.registerWrite address m v lanes) s
    (address.toNat < b ∨ b + 16383 < address.toNat → w = .next { s with bus := ⟨.noAck, none⟩ })
      ∧ (∀ k : Fin 8, k.val < 7 → address.toNat = b + 8192 + k.val →
          w = .next { s with
            bus := ⟨.ok, none⟩
            contexts := s.contexts.set m { c with intake := { c.intake with staging := c.intake.staging.set k v } } })
      ∧ (∀ k : Fin 7, address.toNat = b + 8192 + 17 + k.val →
          w = .next { s with
            bus := ⟨.ok, none⟩
            contexts := s.contexts.set m { c with request := { c.request with args := c.request.args.set k v } } })
      ∧ (∀ offset : Nat, address.toNat = b + offset → offset < 16384 →
          offset ∉ ([6, 8199, 8208, 8220, 8240, 8243, 8256, 8257] : List Nat) →
          ¬(8192 ≤ offset ∧ offset < 8199) → ¬(8209 ≤ offset ∧ offset < 8216) →
          w = .next { s with bus := ⟨.ok, none⟩ })
      ∧ (∀ p ∈ ([(6, .busErrorClear m v), (8199, .commit m v), (8220, .contextReset m (.resetWord v)),
            (8240, .overflowClear m v), (8243, .cursorPositionWrite m v), (8256, .flagsWordWrite m v),
            (8257, .enableMaskWrite m v), (8208, .unknownRequestCode m v)] : List (Nat × Instr)),
          address.toNat = b + p.1 → w = exec p.2 s)
      ∧ ∀ p ∈ requestsOf m, address.toNat = b + 8208 → v.toNat = p.1.toNat → w = exec p.2 s

/-- 09 section 9.7 and 11 section 11.3 (R158, R160, R177): a code word write of a value that names no request completes
BAD_ARG with the value's bits 7 to 0 as its code; while the slot is IN FLIGHT a code word write, of any value and of any of
the eighteen requests, is answered RETRY and changes nothing. -/
def Obligations.UnknownCodesAndRetries : Prop :=
  ∀ (s : State) (m : Slot), s.inReset = false →
    (∀ v : Word, (s.ctx m).request.inFlight = false → v.toNat = 0 ∨ 18 < v.toNat →
        exec (.unknownRequestCode m v) s = .next (s.answered m (v.setWidth 8) .badArg Values.zero))
      ∧ ((s.ctx m).request.inFlight = true →
          (∀ v : Word, exec (.requestSlotRetry m v) s = .next { s with bus := ⟨.retry, none⟩ })
            ∧ ∀ p ∈ requestsOf m, exec p.2 s = .next { s with bus := ⟨.retry, none⟩ })

/-! ### Operating states -/

/-- 10 section 10.4 (R168, Table 10-3), with log 19 for the code word of a refused unknown code: SET PARAMETER completes
BAD_ARG for a code that names no parameter, STATE for L or H in RUN, BUSY for L or H while a window is held, BAD_ARG for a
value out of range, each with the value in force, and otherwise sets that parameter alone. The codes name the parameters in
the order of Table 10-3 (Table 11-4). -/
def Obligations.SetParameterChecksInOrder : Prop :=
  ∀ (s : State) (m : Slot), s.Ready m →
    let code := (s.arg m 0).toNat
    let v := (s.arg m 1).toNat
    let refused (st : Status) (held : Nat) := s.answered m 17 st ⟨s.arg m 0, BitVec.ofNat 32 held, 0⟩
    (code = 0 ∨ 17 < code → exec (.setParameter m) s = .next (refused .badArg 0))
      ∧ (∀ held : Nat, s.params.value code = some held →
          (code ∈ [15, 16] → s.part = .run → exec (.setParameter m) s = .next (refused .state held))
            ∧ (code ∈ [15, 16] → s.part = .setup → s.held ≠ [] →
                exec (.setParameter m) s = .next (refused .busy held))
            ∧ (code ∉ [15, 16] ∨ (s.part = .setup ∧ s.held = []) → s.params.accepts code v = false →
                exec (.setParameter m) s = .next (refused .badArg held))
            ∧ (code ∉ [15, 16] ∨ (s.part = .setup ∧ s.held = []) → s.params.accepts code v = true →
                exec (.setParameter m) s = .next
                  (State.answered { s with params := s.params.assign code v } m 17 .ok ⟨s.arg m 0, s.arg m 1, 0⟩)))
      ∧ (∀ p : Params, (List.range 18).map p.value =
          [none, some p.lockWindow, some p.gp, some p.gi, some p.hubGrowth, some p.scanBit, some p.silenceTimeout,
            some p.maxDelay, some p.minDriftSpan, some p.smoothing, some p.probeGrowth, some p.stepLimit, some p.satBase,
            some p.satGrowth, some p.staleLimit, some p.windowLength, some p.holdOpen, some p.tolerance])
      ∧ (∀ (p : Params) (k x : Nat), p.accepts k x = true → ∀ j : Nat,
          (p.assign k x).value j = if j = k then some x else p.value j)
      ∧ (∀ (p : Params) (x : Nat), ∀ range ∈ ([(1, 1, 1000), (4, 0, 65535), (5, 16, 22), (6, 1, 3600), (7, 1, 1000000),
            (8, 10, 3600), (9, 0, 7), (10, 0, 65535), (11, 1, 1000000), (12, 0, 65535), (13, 0, 65535),
            (14, 1, 32767), (16, 0, 600), (17, 0, 16777215)] : List (Nat × Nat × Nat)),
          (p.accepts range.1 x = true ↔ range.2.1 ≤ x ∧ x ≤ range.2.2))
      ∧ ∀ (p : Params) (x : Nat),
          (p.accepts 2 x = true ↔ x ≤ 7 ∧ x < p.gi) ∧ (p.accepts 3 x = true ↔ p.gp < x ∧ x ≤ 12)
            ∧ (p.accepts 15 x = true ↔ x ∈ [1, 2, 5, 10, 30, 60])

/-- 10 section 10.5 (R170, R171, R172, with R7, R42, R116): CONTEXT RESET, by its code in an IDLE slot or by the context
reset word in any, sets the caller's context to its reset values; takes the caller out of every pending set and frees,
ascending, the windows that owed it alone; takes the stations of its range out of service, ascending, their models discarded,
and makes the range entry invalid; cancels its SET TIME with TIMEBASE raised everywhere; and completes with request number 0
and its three counts, REQUEST DONE (bit 5) pending. Nothing else changes. -/
def Obligations.ContextResetReturnsTheContext : Prop :=
  ∀ (s : State) (m : Slot) (way : ContextResetWay), s.inReset = false → s.TimingGood → s.RingGood →
    (way = .codeWord → (s.ctx m).request.inFlight = false) →
    let cancelled := (s.timebase.inFlight.map SetTimeInFlight.slot) = some m
    let owned : List StationNo := (List.finRange 128).filter fun n => s.owns m n
    let enabled := (owned.filter fun n => decide ((s.station n).state ≠ .disabled)).length
    let owesAlone (w : Window) : Bool := decide (w.pending = [m])
    let emptyContext : Context :=
      ⟨(s.ctx m).range, ⟨[], 0⟩, ⟨Vector.replicate 8 0, [], false, 12, false, 0, 0, 0, 0, 0, none⟩,
        ⟨false, [], false, none, ⟨.none, 0, .none, Vector.replicate 16 0⟩, 0, none⟩, ⟨0, 0⟩,
        ⟨false, Vector.replicate 7 0, 0, 0, ⟨0, 0, .none, ⟨0, 0, 0⟩⟩⟩⟩
    let cleared : State := { s with contexts := s.contexts.set m emptyContext }
    let freed := cleared.without owesAlone
    let released : State := { freed with
      windows := vmap (Option.map fun w => { w with pending := w.pending.filter (· ≠ m) }) freed.windows }
    let disabled : State := owned.foldl (fun u n => u.outOfService n { u.station n with
      state := .disabled, pendingConfig := none, active := none, staged := none, anchor := none, history := [] }) released
    let unowned : State := { disabled with contexts := disabled.contexts.set m { disabled.ctx m with range := none } }
    let disarmed : State :=
      if cancelled then
        { unowned.timebaseRaised with timebase := { s.timebase with discipline := .free, inFlight := none } }
      else unowned
    exec (.contextReset m way) s = .next { disarmed with
      bus := ⟨.ok, none⟩
      contexts := disarmed.contexts.set m { disarmed.ctx m with
        request := ⟨false, Vector.replicate 7 0, 0, 0, ⟨18, 0, .ok,
          ⟨if cancelled then 1 else 0, BitVec.ofNat 32 enabled, BitVec.ofNat 32 (s.held.filter owesAlone).length⟩⟩⟩
        attention := { (disarmed.ctx m).attention with
          pending := (disarmed.ctx m).attention.pending ||| 0x20#6 } } }

/-- 10 section 10.6 with the resets of each chapter (R43, R47, R99, R122, R138, R148, R163, R173, R174): a reset line that is
asserted puts every block at its full-reset values, the latched straps and the other line as they were; the full reset ends
when neither line is asserted any more, and the straps are then latched (log 2, log 18: the straps are the command's
operand). While either line is asserted, no event is taken and every transaction goes without acknowledge and changes
nothing. The field `bus` and the queue are the model's (log 1, log 7). -/
def Obligations.FullResetAndItsEnd : Prop :=
  (∀ (s : State) (line : ResetLine), ∃ t : State, exec (.fullReset line) s = .next t
      ∧ t.inReset = true ∧ t.straps = s.straps ∧ t.pending = s.pending ∧ t.bus = ⟨.noAck, none⟩
      ∧ t.resetPin = (s.resetPin || decide (line = .resetInput)) ∧ t.busReset = (s.busReset || decide (line = .shelfBus))
      ∧ t.part = .setup ∧ t.rrPointer = 0 ∧ t.busError = none ∧ t.held = []
      ∧ t.timebase =
          ⟨0, 0, 0, 0, .free, 0, 0, 0, none, 0, 0, 0, 0, 0, none, none, none, false⟩
      ∧ t.params = ⟨50, 2, 6, 100, 20, 60, 100000, 300, 2, 1000, 1000, 1, 500, 3600, 10, 30, 1000⟩
      ∧ (∀ n : StationNo, t.station n =
          ⟨.disabled, ⟨.satellite, 5, 0, 0, 0⟩, none, none, none, none, none, none, [], 0, false, 0,
            ⟨0, 0, 0, 0, 0, 0, 0, 0⟩⟩)
      ∧ ∀ m : Slot, t.attn m = false ∧ t.ctx m =
          ⟨none, ⟨[], 0⟩, ⟨Vector.replicate 8 0, [], false, 12, false, 0, 0, 0, 0, 0, none⟩,
            ⟨false, [], false, none, ⟨.none, 0, .none, Vector.replicate 16 0⟩, 0, none⟩, ⟨0, 0⟩,
            ⟨false, Vector.replicate 7 0, 0, 0, ⟨0, 0, .none, ⟨0, 0, 0⟩⟩⟩⟩)
    ∧ (∀ (s : State) (straps : Straps),
        exec (.fullResetEnd .resetInput straps) s = .next { s with
            resetPin := false
            straps := if s.resetPin = true ∧ s.busReset = false then straps else s.straps }
          ∧ exec (.fullResetEnd .shelfBus straps) s = .next { s with
              busReset := false
              straps := if s.busReset = true ∧ s.resetPin = false then straps else s.straps })
    ∧ ∀ (s : State) (c : Instr), s.inReset = true →
        (sender c = none → (∀ line : ResetLine, c ≠ .fullReset line) →
            (∀ (line : ResetLine) (straps : Straps), c ≠ .fullResetEnd line straps) → exec c s = .next s)
          ∧ ∀ m : Slot, sender c = some m → exec c s = .next { s with bus := ⟨.noAck, none⟩ }

/-- 09 section 9.2 (R150): a transaction of slot m leaves every other slot's intake, capture ring, request slot, range entry
and enable mask as they were, whatever the command and whatever the state. -/
def Obligations.SlotsKeepToTheirOwnContext : Prop :=
  ∀ (c : Instr) (s t : State) (m k : Slot), sender c = some m → k ≠ m → exec c s = .next t →
    (t.ctx k).intake = (s.ctx k).intake ∧ (t.ctx k).capture = (s.ctx k).capture
      ∧ (t.ctx k).request = (s.ctx k).request ∧ (t.ctx k).range = (s.ctx k).range
      ∧ (t.ctx k).attention.enables = (s.ctx k).attention.enables
end

