-- ==== Sys2Proof/Laws/Arith.lean ====
section
/-! SUPPORT. What the shared arithmetic and bit operations give, each said once: saturating counters, clamps, divisions,
fields placed in a word, station numbers,
parity. -/

namespace Sys2Proof.Machine

theorem usUnits_eq : usUnits = 2 ^ 32 := rfl

theorem raise16_eq (n : Nat) : raise16 n = min 65535 (n + 1) := rfl

theorem raise16_le (n : Nat) : raise16 n ≤ 65535 := Nat.min_le_left ..

theorem raise16By_eq (k n : Nat) : raise16By k n = min 65535 (n + k) := rfl

theorem raise16By_le (k n : Nat) : raise16By k n ≤ 65535 := Nat.min_le_left ..

theorem clamp_bounds {n : Int} (hn : 0 ≤ n) (x : Int) : -n ≤ clamp n x ∧ clamp n x ≤ n := by
  unfold clamp
  omega

/-- A clamp leaves what lies within its limits. -/
theorem clamp_eq_self {n x : Int} (h : -n ≤ x) (h' : x ≤ n) : clamp n x = x := by
  unfold clamp
  omega

/-- The quotient truncated toward zero lies within the dividend's bound scaled down. -/
theorem tdiv_bounds {a b m : Int} (hb : 0 < b) (h : -(m * b) ≤ a) (h' : a ≤ m * b) : -m ≤ a.tdiv b ∧ a.tdiv b ≤ m := by
  have key : ∀ x : Int, 0 ≤ x → x ≤ m * b → 0 ≤ x.tdiv b ∧ x.tdiv b ≤ m := by
    intro x hx hxm
    rw [Int.tdiv_eq_ediv_of_nonneg hx]
    exact ⟨Int.ediv_nonneg hx hb.le, Int.ediv_le_of_le_mul hb hxm⟩
  rcases Int.le_total 0 a with ha | ha
  · have := key a ha h'
    omega
  · have h2 : a.tdiv b = -((-a).tdiv b) := by rw [Int.neg_tdiv, Int.neg_neg]
    have := key (-a) (by omega) (by omega)
    omega

/-- Moving part of the way from one value within limits to another stays within them (R57). -/
theorem toward_bounds {n base raw : Int} {k : Nat} (hb : -n ≤ base ∧ base ≤ n) (hr : -n ≤ raw ∧ raw ≤ n) :
    -n ≤ base + (raw - base).tdiv (2 ^ k) ∧ base + (raw - base).tdiv (2 ^ k) ≤ n := by
  have hk : (1 : Int) ≤ 2 ^ k := by exact_mod_cast Nat.one_le_two_pow
  rcases Int.le_total 0 (raw - base) with h | h
  · have h1 : (raw - base).tdiv (2 ^ k) ≤ raw - base := Int.tdiv_le_self _ h
    have h2 : 0 ≤ (raw - base).tdiv (2 ^ k) := Int.tdiv_nonneg h (by linarith)
    omega
  · have h1 : (base - raw).tdiv (2 ^ k) ≤ base - raw := Int.tdiv_le_self _ (by omega)
    have h2 : 0 ≤ (base - raw).tdiv (2 ^ k) := Int.tdiv_nonneg (by omega) (by linarith)
    have h3 : (raw - base).tdiv (2 ^ k) = -((base - raw).tdiv (2 ^ k)) := by
      rw [← Int.neg_tdiv, Int.neg_sub]
    omega

/-- round(x / b) is the nearest integer, a half going away from zero (00 section 0.6.4). -/
theorem roundDiv_nearest (x : Int) {b : Nat} (hb : 0 < b) :
    2 * (roundDiv x b * b - x).natAbs ≤ b
      ∧ (2 * (roundDiv x b * b - x).natAbs = b → x.natAbs < (roundDiv x b * b).natAbs) := by
  unfold roundDiv
  have h1 := Nat.div_add_mod (2 * x.natAbs + b) (2 * b)
  have h2 := Nat.mod_lt (2 * x.natAbs + b) (show 0 < 2 * b by omega)
  generalize (2 * x.natAbs + b) / (2 * b) = q at *
  generalize (2 * x.natAbs + b) % (2 * b) = r at *
  have h3 : 2 * b * q = 2 * (q * b) := by ring
  rw [h3] at h1
  rcases lt_trichotomy x 0 with h | rfl | h
  · rw [Int.sign_eq_neg_one_of_neg h]
    have : ((-1 : Int) * (q : Int) * (b : Int)) = -((q * b : Nat) : Int) := by push_cast; ring
    rw [this]
    generalize q * b = z at *
    omega
  · simp; omega
  · rw [Int.sign_eq_one_of_pos h]
    have : ((1 : Int) * (q : Int) * (b : Int)) = ((q * b : Nat) : Int) := by push_cast; ring
    rw [this]
    generalize q * b = z at *
    omega

/-- A distance behind lies below 65,536 (R38). -/
theorem behind_lt (last s : Nat) : behind last s < 65536 := by
  unfold behind
  have h := Int.emod_lt_of_pos ((last : Int) - s) (show (0 : Int) < 65536 by decide)
  have h' := Int.emod_nonneg ((last : Int) - s) (show (65536 : Int) ≠ 0 by decide)
  show (((last : Int) - s) % 65536).toNat < 65536
  omega

@[simp] theorem behind_self (n : Nat) : behind n n = 0 := by
  simp only [behind, Int.sub_self]
  rfl

/-- Two fields of a word that do not meet, the lower one of `k` bits, are added. -/
theorem atBit_or_low {a b k : Nat} (hb : b < 2 ^ k) : atBit a k ||| atBit b 0 = BitVec.ofNat 32 (2 ^ k * a + b) := by
  unfold atBit
  rw [Nat.shiftLeft_zero, ← BitVec.ofNat_or, Nat.shiftLeft_eq, Nat.mul_comm a, ← Nat.two_pow_add_eq_or_of_lt hb]

@[simp] theorem stationOf_val (n : StationNo) : stationOf n.val = some n := by
  simp [stationOf]

theorem stationOf_eq_none {k : Nat} : stationOf k = none ↔ 127 < k := by
  simp [stationOf]
  omega

theorem stationOf_eq_some {k : Nat} {n : StationNo} : stationOf k = some n ↔ k = n.val := by
  unfold stationOf
  split
  · simp [Fin.ext_iff]
  · have := n.isLt
    constructor
    · intro h; cases h
    · intro h; omega

/-- The two words of a value put together again are the value. -/
theorem wide_toNat (lo hi : Word) : loWord (wide lo hi) = lo ∧ hiWord (wide lo hi) = hi := by
  have hl := lo.isLt
  have hh := hi.isLt
  constructor
  · apply BitVec.eq_of_toNat_eq
    simp only [loWord, wide, BitVec.toNat_ofNat]
    omega
  · apply BitVec.eq_of_toNat_eq
    simp only [hiWord, wide, BitVec.toNat_ofNat, Nat.shiftRight_eq_div_pow]
    omega

/-! ### Parity -/

/-- Exclusive or with "an odd number" adds one more bit to the count. -/
theorem xor_odd (b : Bool) (n : Nat) : (b ^^ decide (n % 2 = 1)) = decide ((n + b.toNat) % 2 = 1) := by
  have h : n % 2 = 0 ∨ n % 2 = 1 := by omega
  cases b <;> rcases h with h | h <;> simp [h, Nat.add_mod]

/-- Folding bits together by exclusive or says whether an odd number of them is set. -/
theorem foldl_xor_eq (f : Nat → Bool) (l : List Nat) (b : Bool) :
    l.foldl (fun acc i => acc ^^ f i) b = (b ^^ decide (l.countP f % 2 = 1)) := by
  induction l generalizing b with
  | nil => simp
  | cons a l ih =>
    have hx : (b ^^ f a) = (f a ^^ b) := Bool.xor_comm ..
    have hn : (l.countP f + if f a = true then 1 else 0) = l.countP f + (f a).toNat := by cases f a <;> rfl
    rw [List.foldl_cons, ih, List.countP_cons, hx, hn, ← xor_odd, ← Bool.xor_assoc, Bool.xor_comm b]

/-- A byte lane passes when its data bits and its parity bit hold an odd number of ones (R152). -/
theorem laneParityOk_iff (v : Word) (lanes : BitVec 4) (k : Nat) :
    laneParityOk v lanes k = true ↔
      ((List.range 8).countP (fun i => v.getLsbD (8 * k + i)) + (lanes.getLsbD k).toNat) % 2 = 1 := by
  rw [laneParityOk, foldl_xor_eq, xor_odd, decide_eq_true_iff]

theorem lanesOk_iff (v : Word) (lanes : BitVec 4) :
    lanesOk v lanes = true ↔ ∀ k : Nat, k < 4 → laneParityOk v lanes k = true := by
  simp [lanesOk]

/-- The parity bits driven with a returned word are odd in each lane (R153). -/
theorem lanesOk_oddLanes (v : Word) : lanesOk v (oddLanes v) = true := by
  have zero : ∀ k, laneParityOk v 0 k = decide ((List.range 8).countP (fun i => v.getLsbD (8 * k + i)) % 2 = 1) := by
    intro k
    rw [laneParityOk, foldl_xor_eq]
    simp
  have bits : ∀ (b0 b1 b2 b3 : Bool),
      let l := BitVec.ofNat 4 (b0.toNat + 2 * b1.toNat + 4 * b2.toNat + 8 * b3.toNat)
      l.getLsbD 0 = b0 ∧ l.getLsbD 1 = b1 ∧ l.getLsbD 2 = b2 ∧ l.getLsbD 3 = b3 := by decide
  obtain ⟨h0, h1, h2, h3⟩ :=
    bits (oddParityBit v 0) (oddParityBit v 1) (oddParityBit v 2) (oddParityBit v 3)
  rw [lanesOk_iff]
  intro k hk
  rw [laneParityOk, foldl_xor_eq, ← zero]
  have hb : (oddLanes v).getLsbD k = oddParityBit v k := by
    have : k = 0 ∨ k = 1 ∨ k = 2 ∨ k = 3 := by omega
    rcases this with rfl | rfl | rfl | rfl <;> assumption
  rw [hb, oddParityBit]
  cases laneParityOk v 0 k <;> rfl

/-- An address phase passes when the word address, the slot, the direction (WRITE a one) and the parity bit hold an odd
number of ones (R151). -/
theorem addressParityOk_iff (address : WordAddress) (m : Slot) (d : Direction) (parity : Bool) :
    addressParityOk address m d parity = true ↔
      ((List.range 18).countP (fun i => address.getLsbD i) + (List.range 2).countP (fun i => m.val.testBit i)
        + (if d = .write then 1 else 0) + parity.toNat) % 2 = 1 := by
  rw [addressParityOk, foldl_xor_eq, xor_odd, decide_eq_true_iff]
  have h2 : (List.range 2).countP (fun i => m.val.testBit i) = (m.val.testBit 0).toNat + (m.val.testBit 1).toNat := by
    revert m
    decide
  rw [h2]
  generalize (List.range 18).countP (fun i => address.getLsbD i) = n
  generalize m.val.testBit 0 = x
  generalize m.val.testBit 1 = y
  have hb : ∀ (d : Direction) (x y p : Bool),
      (x ^^ y ^^ (d == .write) ^^ p).toNat % 2
        = (x.toNat + y.toNat + (if d = .write then 1 else 0) + p.toNat) % 2 := by
    intro d
    cases d <;> decide
  have := hb d x y parity
  omega

end Sys2Proof.Machine
end

