-- ==== Sys2Proof/Laws/State.lean ====
section
/-! SUPPORT. One lemma for each field that an update of the state leaves alone, true by computation, so that no later
proof unfolds a record update. -/

namespace Sys2Proof.Machine.State

variable (s : State) (m k : Slot) (c : Context) (n : StationNo) (r : Station) (t : Timebase) (w : Nat) (cause : Cause)
variable (entry : Option Range) (code : BitVec 8) (value : Word) (st : Status) (v : Values) (a : Response)
variable (d : Option Word) (fc : Context → Context) (fs : Station → Station) (fi : Intake → Intake)
variable (fp : Capture → Capture) (fr : Reader → Reader) (fa : Attention → Attention)
variable (fq : RequestSlot → RequestSlot) (fw : Window → Window)

/-! ### setCtx -/

@[simp] theorem setCtx_timebase : (s.setCtx m c).timebase = s.timebase := rfl
@[simp] theorem setCtx_params : (s.setCtx m c).params = s.params := rfl
@[simp] theorem setCtx_part : (s.setCtx m c).part = s.part := rfl
@[simp] theorem setCtx_stations : (s.setCtx m c).stations = s.stations := rfl
@[simp] theorem setCtx_windows : (s.setCtx m c).windows = s.windows := rfl
@[simp] theorem setCtx_rrPointer : (s.setCtx m c).rrPointer = s.rrPointer := rfl
@[simp] theorem setCtx_busError : (s.setCtx m c).busError = s.busError := rfl
@[simp] theorem setCtx_straps : (s.setCtx m c).straps = s.straps := rfl
@[simp] theorem setCtx_resetPin : (s.setCtx m c).resetPin = s.resetPin := rfl
@[simp] theorem setCtx_busReset : (s.setCtx m c).busReset = s.busReset := rfl
@[simp] theorem setCtx_bus : (s.setCtx m c).bus = s.bus := rfl
@[simp] theorem setCtx_pending : (s.setCtx m c).pending = s.pending := rfl
@[simp] theorem setCtx_station : (s.setCtx m c).station n = s.station n := rfl
@[simp] theorem setCtx_held : (s.setCtx m c).held = s.held := rfl
@[simp] theorem setCtx_inReset : (s.setCtx m c).inReset = s.inReset := rfl

/-! ### modCtx -/

@[simp] theorem modCtx_timebase : (s.modCtx m fc).timebase = s.timebase := rfl
@[simp] theorem modCtx_params : (s.modCtx m fc).params = s.params := rfl
@[simp] theorem modCtx_part : (s.modCtx m fc).part = s.part := rfl
@[simp] theorem modCtx_stations : (s.modCtx m fc).stations = s.stations := rfl
@[simp] theorem modCtx_windows : (s.modCtx m fc).windows = s.windows := rfl
@[simp] theorem modCtx_rrPointer : (s.modCtx m fc).rrPointer = s.rrPointer := rfl
@[simp] theorem modCtx_busError : (s.modCtx m fc).busError = s.busError := rfl
@[simp] theorem modCtx_straps : (s.modCtx m fc).straps = s.straps := rfl
@[simp] theorem modCtx_resetPin : (s.modCtx m fc).resetPin = s.resetPin := rfl
@[simp] theorem modCtx_busReset : (s.modCtx m fc).busReset = s.busReset := rfl
@[simp] theorem modCtx_bus : (s.modCtx m fc).bus = s.bus := rfl
@[simp] theorem modCtx_pending : (s.modCtx m fc).pending = s.pending := rfl
@[simp] theorem modCtx_station : (s.modCtx m fc).station n = s.station n := rfl
@[simp] theorem modCtx_held : (s.modCtx m fc).held = s.held := rfl
@[simp] theorem modCtx_inReset : (s.modCtx m fc).inReset = s.inReset := rfl

/-! ### modAllCtx -/

@[simp] theorem modAllCtx_timebase : (s.modAllCtx fc).timebase = s.timebase := rfl
@[simp] theorem modAllCtx_params : (s.modAllCtx fc).params = s.params := rfl
@[simp] theorem modAllCtx_part : (s.modAllCtx fc).part = s.part := rfl
@[simp] theorem modAllCtx_stations : (s.modAllCtx fc).stations = s.stations := rfl
@[simp] theorem modAllCtx_windows : (s.modAllCtx fc).windows = s.windows := rfl
@[simp] theorem modAllCtx_rrPointer : (s.modAllCtx fc).rrPointer = s.rrPointer := rfl
@[simp] theorem modAllCtx_busError : (s.modAllCtx fc).busError = s.busError := rfl
@[simp] theorem modAllCtx_straps : (s.modAllCtx fc).straps = s.straps := rfl
@[simp] theorem modAllCtx_resetPin : (s.modAllCtx fc).resetPin = s.resetPin := rfl
@[simp] theorem modAllCtx_busReset : (s.modAllCtx fc).busReset = s.busReset := rfl
@[simp] theorem modAllCtx_bus : (s.modAllCtx fc).bus = s.bus := rfl
@[simp] theorem modAllCtx_pending : (s.modAllCtx fc).pending = s.pending := rfl
@[simp] theorem modAllCtx_station : (s.modAllCtx fc).station n = s.station n := rfl
@[simp] theorem modAllCtx_held : (s.modAllCtx fc).held = s.held := rfl
@[simp] theorem modAllCtx_inReset : (s.modAllCtx fc).inReset = s.inReset := rfl

/-! ### setStation -/

@[simp] theorem setStation_timebase : (s.setStation n r).timebase = s.timebase := rfl
@[simp] theorem setStation_params : (s.setStation n r).params = s.params := rfl
@[simp] theorem setStation_part : (s.setStation n r).part = s.part := rfl
@[simp] theorem setStation_contexts : (s.setStation n r).contexts = s.contexts := rfl
@[simp] theorem setStation_windows : (s.setStation n r).windows = s.windows := rfl
@[simp] theorem setStation_rrPointer : (s.setStation n r).rrPointer = s.rrPointer := rfl
@[simp] theorem setStation_busError : (s.setStation n r).busError = s.busError := rfl
@[simp] theorem setStation_straps : (s.setStation n r).straps = s.straps := rfl
@[simp] theorem setStation_resetPin : (s.setStation n r).resetPin = s.resetPin := rfl
@[simp] theorem setStation_busReset : (s.setStation n r).busReset = s.busReset := rfl
@[simp] theorem setStation_bus : (s.setStation n r).bus = s.bus := rfl
@[simp] theorem setStation_pending : (s.setStation n r).pending = s.pending := rfl
@[simp] theorem setStation_ctx : (s.setStation n r).ctx k = s.ctx k := rfl
@[simp] theorem setStation_held : (s.setStation n r).held = s.held := rfl
@[simp] theorem setStation_inReset : (s.setStation n r).inReset = s.inReset := rfl

/-! ### modStation -/

@[simp] theorem modStation_timebase : (s.modStation n fs).timebase = s.timebase := rfl
@[simp] theorem modStation_params : (s.modStation n fs).params = s.params := rfl
@[simp] theorem modStation_part : (s.modStation n fs).part = s.part := rfl
@[simp] theorem modStation_contexts : (s.modStation n fs).contexts = s.contexts := rfl
@[simp] theorem modStation_windows : (s.modStation n fs).windows = s.windows := rfl
@[simp] theorem modStation_rrPointer : (s.modStation n fs).rrPointer = s.rrPointer := rfl
@[simp] theorem modStation_busError : (s.modStation n fs).busError = s.busError := rfl
@[simp] theorem modStation_straps : (s.modStation n fs).straps = s.straps := rfl
@[simp] theorem modStation_resetPin : (s.modStation n fs).resetPin = s.resetPin := rfl
@[simp] theorem modStation_busReset : (s.modStation n fs).busReset = s.busReset := rfl
@[simp] theorem modStation_bus : (s.modStation n fs).bus = s.bus := rfl
@[simp] theorem modStation_pending : (s.modStation n fs).pending = s.pending := rfl
@[simp] theorem modStation_ctx : (s.modStation n fs).ctx k = s.ctx k := rfl
@[simp] theorem modStation_held : (s.modStation n fs).held = s.held := rfl
@[simp] theorem modStation_inReset : (s.modStation n fs).inReset = s.inReset := rfl

/-! ### modAllStations -/

@[simp] theorem modAllStations_timebase : (s.modAllStations fs).timebase = s.timebase := rfl
@[simp] theorem modAllStations_params : (s.modAllStations fs).params = s.params := rfl
@[simp] theorem modAllStations_part : (s.modAllStations fs).part = s.part := rfl
@[simp] theorem modAllStations_contexts : (s.modAllStations fs).contexts = s.contexts := rfl
@[simp] theorem modAllStations_windows : (s.modAllStations fs).windows = s.windows := rfl
@[simp] theorem modAllStations_rrPointer : (s.modAllStations fs).rrPointer = s.rrPointer := rfl
@[simp] theorem modAllStations_busError : (s.modAllStations fs).busError = s.busError := rfl
@[simp] theorem modAllStations_straps : (s.modAllStations fs).straps = s.straps := rfl
@[simp] theorem modAllStations_resetPin : (s.modAllStations fs).resetPin = s.resetPin := rfl
@[simp] theorem modAllStations_busReset : (s.modAllStations fs).busReset = s.busReset := rfl
@[simp] theorem modAllStations_bus : (s.modAllStations fs).bus = s.bus := rfl
@[simp] theorem modAllStations_pending : (s.modAllStations fs).pending = s.pending := rfl
@[simp] theorem modAllStations_ctx : (s.modAllStations fs).ctx k = s.ctx k := rfl
@[simp] theorem modAllStations_held : (s.modAllStations fs).held = s.held := rfl
@[simp] theorem modAllStations_inReset : (s.modAllStations fs).inReset = s.inReset := rfl

/-! ### setTimebase -/

@[simp] theorem setTimebase_params : (s.setTimebase t).params = s.params := rfl
@[simp] theorem setTimebase_part : (s.setTimebase t).part = s.part := rfl
@[simp] theorem setTimebase_stations : (s.setTimebase t).stations = s.stations := rfl
@[simp] theorem setTimebase_contexts : (s.setTimebase t).contexts = s.contexts := rfl
@[simp] theorem setTimebase_windows : (s.setTimebase t).windows = s.windows := rfl
@[simp] theorem setTimebase_rrPointer : (s.setTimebase t).rrPointer = s.rrPointer := rfl
@[simp] theorem setTimebase_busError : (s.setTimebase t).busError = s.busError := rfl
@[simp] theorem setTimebase_straps : (s.setTimebase t).straps = s.straps := rfl
@[simp] theorem setTimebase_resetPin : (s.setTimebase t).resetPin = s.resetPin := rfl
@[simp] theorem setTimebase_busReset : (s.setTimebase t).busReset = s.busReset := rfl
@[simp] theorem setTimebase_bus : (s.setTimebase t).bus = s.bus := rfl
@[simp] theorem setTimebase_pending : (s.setTimebase t).pending = s.pending := rfl
@[simp] theorem setTimebase_ctx : (s.setTimebase t).ctx k = s.ctx k := rfl
@[simp] theorem setTimebase_station : (s.setTimebase t).station n = s.station n := rfl
@[simp] theorem setTimebase_held : (s.setTimebase t).held = s.held := rfl
@[simp] theorem setTimebase_inReset : (s.setTimebase t).inReset = s.inReset := rfl

/-! ### modIntake -/

@[simp] theorem modIntake_timebase : (s.modIntake m fi).timebase = s.timebase := rfl
@[simp] theorem modIntake_params : (s.modIntake m fi).params = s.params := rfl
@[simp] theorem modIntake_part : (s.modIntake m fi).part = s.part := rfl
@[simp] theorem modIntake_stations : (s.modIntake m fi).stations = s.stations := rfl
@[simp] theorem modIntake_windows : (s.modIntake m fi).windows = s.windows := rfl
@[simp] theorem modIntake_rrPointer : (s.modIntake m fi).rrPointer = s.rrPointer := rfl
@[simp] theorem modIntake_busError : (s.modIntake m fi).busError = s.busError := rfl
@[simp] theorem modIntake_straps : (s.modIntake m fi).straps = s.straps := rfl
@[simp] theorem modIntake_resetPin : (s.modIntake m fi).resetPin = s.resetPin := rfl
@[simp] theorem modIntake_busReset : (s.modIntake m fi).busReset = s.busReset := rfl
@[simp] theorem modIntake_bus : (s.modIntake m fi).bus = s.bus := rfl
@[simp] theorem modIntake_pending : (s.modIntake m fi).pending = s.pending := rfl
@[simp] theorem modIntake_station : (s.modIntake m fi).station n = s.station n := rfl
@[simp] theorem modIntake_held : (s.modIntake m fi).held = s.held := rfl
@[simp] theorem modIntake_inReset : (s.modIntake m fi).inReset = s.inReset := rfl

/-! ### modCapture -/

@[simp] theorem modCapture_timebase : (s.modCapture m fp).timebase = s.timebase := rfl
@[simp] theorem modCapture_params : (s.modCapture m fp).params = s.params := rfl
@[simp] theorem modCapture_part : (s.modCapture m fp).part = s.part := rfl
@[simp] theorem modCapture_stations : (s.modCapture m fp).stations = s.stations := rfl
@[simp] theorem modCapture_windows : (s.modCapture m fp).windows = s.windows := rfl
@[simp] theorem modCapture_rrPointer : (s.modCapture m fp).rrPointer = s.rrPointer := rfl
@[simp] theorem modCapture_busError : (s.modCapture m fp).busError = s.busError := rfl
@[simp] theorem modCapture_straps : (s.modCapture m fp).straps = s.straps := rfl
@[simp] theorem modCapture_resetPin : (s.modCapture m fp).resetPin = s.resetPin := rfl
@[simp] theorem modCapture_busReset : (s.modCapture m fp).busReset = s.busReset := rfl
@[simp] theorem modCapture_bus : (s.modCapture m fp).bus = s.bus := rfl
@[simp] theorem modCapture_pending : (s.modCapture m fp).pending = s.pending := rfl
@[simp] theorem modCapture_station : (s.modCapture m fp).station n = s.station n := rfl
@[simp] theorem modCapture_held : (s.modCapture m fp).held = s.held := rfl
@[simp] theorem modCapture_inReset : (s.modCapture m fp).inReset = s.inReset := rfl

/-! ### modReader -/

@[simp] theorem modReader_timebase : (s.modReader m fr).timebase = s.timebase := rfl
@[simp] theorem modReader_params : (s.modReader m fr).params = s.params := rfl
@[simp] theorem modReader_part : (s.modReader m fr).part = s.part := rfl
@[simp] theorem modReader_stations : (s.modReader m fr).stations = s.stations := rfl
@[simp] theorem modReader_windows : (s.modReader m fr).windows = s.windows := rfl
@[simp] theorem modReader_rrPointer : (s.modReader m fr).rrPointer = s.rrPointer := rfl
@[simp] theorem modReader_busError : (s.modReader m fr).busError = s.busError := rfl
@[simp] theorem modReader_straps : (s.modReader m fr).straps = s.straps := rfl
@[simp] theorem modReader_resetPin : (s.modReader m fr).resetPin = s.resetPin := rfl
@[simp] theorem modReader_busReset : (s.modReader m fr).busReset = s.busReset := rfl
@[simp] theorem modReader_bus : (s.modReader m fr).bus = s.bus := rfl
@[simp] theorem modReader_pending : (s.modReader m fr).pending = s.pending := rfl
@[simp] theorem modReader_station : (s.modReader m fr).station n = s.station n := rfl
@[simp] theorem modReader_held : (s.modReader m fr).held = s.held := rfl
@[simp] theorem modReader_inReset : (s.modReader m fr).inReset = s.inReset := rfl

/-! ### modAttention -/

@[simp] theorem modAttention_timebase : (s.modAttention m fa).timebase = s.timebase := rfl
@[simp] theorem modAttention_params : (s.modAttention m fa).params = s.params := rfl
@[simp] theorem modAttention_part : (s.modAttention m fa).part = s.part := rfl
@[simp] theorem modAttention_stations : (s.modAttention m fa).stations = s.stations := rfl
@[simp] theorem modAttention_windows : (s.modAttention m fa).windows = s.windows := rfl
@[simp] theorem modAttention_rrPointer : (s.modAttention m fa).rrPointer = s.rrPointer := rfl
@[simp] theorem modAttention_busError : (s.modAttention m fa).busError = s.busError := rfl
@[simp] theorem modAttention_straps : (s.modAttention m fa).straps = s.straps := rfl
@[simp] theorem modAttention_resetPin : (s.modAttention m fa).resetPin = s.resetPin := rfl
@[simp] theorem modAttention_busReset : (s.modAttention m fa).busReset = s.busReset := rfl
@[simp] theorem modAttention_bus : (s.modAttention m fa).bus = s.bus := rfl
@[simp] theorem modAttention_pending : (s.modAttention m fa).pending = s.pending := rfl
@[simp] theorem modAttention_station : (s.modAttention m fa).station n = s.station n := rfl
@[simp] theorem modAttention_held : (s.modAttention m fa).held = s.held := rfl
@[simp] theorem modAttention_inReset : (s.modAttention m fa).inReset = s.inReset := rfl

/-! ### modRequest -/

@[simp] theorem modRequest_timebase : (s.modRequest m fq).timebase = s.timebase := rfl
@[simp] theorem modRequest_params : (s.modRequest m fq).params = s.params := rfl
@[simp] theorem modRequest_part : (s.modRequest m fq).part = s.part := rfl
@[simp] theorem modRequest_stations : (s.modRequest m fq).stations = s.stations := rfl
@[simp] theorem modRequest_windows : (s.modRequest m fq).windows = s.windows := rfl
@[simp] theorem modRequest_rrPointer : (s.modRequest m fq).rrPointer = s.rrPointer := rfl
@[simp] theorem modRequest_busError : (s.modRequest m fq).busError = s.busError := rfl
@[simp] theorem modRequest_straps : (s.modRequest m fq).straps = s.straps := rfl
@[simp] theorem modRequest_resetPin : (s.modRequest m fq).resetPin = s.resetPin := rfl
@[simp] theorem modRequest_busReset : (s.modRequest m fq).busReset = s.busReset := rfl
@[simp] theorem modRequest_bus : (s.modRequest m fq).bus = s.bus := rfl
@[simp] theorem modRequest_pending : (s.modRequest m fq).pending = s.pending := rfl
@[simp] theorem modRequest_station : (s.modRequest m fq).station n = s.station n := rfl
@[simp] theorem modRequest_held : (s.modRequest m fq).held = s.held := rfl
@[simp] theorem modRequest_inReset : (s.modRequest m fq).inReset = s.inReset := rfl

/-! ### setRangeEntry -/

@[simp] theorem setRangeEntry_timebase : (s.setRangeEntry m entry).timebase = s.timebase := rfl
@[simp] theorem setRangeEntry_params : (s.setRangeEntry m entry).params = s.params := rfl
@[simp] theorem setRangeEntry_part : (s.setRangeEntry m entry).part = s.part := rfl
@[simp] theorem setRangeEntry_stations : (s.setRangeEntry m entry).stations = s.stations := rfl
@[simp] theorem setRangeEntry_windows : (s.setRangeEntry m entry).windows = s.windows := rfl
@[simp] theorem setRangeEntry_rrPointer : (s.setRangeEntry m entry).rrPointer = s.rrPointer := rfl
@[simp] theorem setRangeEntry_busError : (s.setRangeEntry m entry).busError = s.busError := rfl
@[simp] theorem setRangeEntry_straps : (s.setRangeEntry m entry).straps = s.straps := rfl
@[simp] theorem setRangeEntry_resetPin : (s.setRangeEntry m entry).resetPin = s.resetPin := rfl
@[simp] theorem setRangeEntry_busReset : (s.setRangeEntry m entry).busReset = s.busReset := rfl
@[simp] theorem setRangeEntry_bus : (s.setRangeEntry m entry).bus = s.bus := rfl
@[simp] theorem setRangeEntry_pending : (s.setRangeEntry m entry).pending = s.pending := rfl
@[simp] theorem setRangeEntry_station : (s.setRangeEntry m entry).station n = s.station n := rfl
@[simp] theorem setRangeEntry_held : (s.setRangeEntry m entry).held = s.held := rfl
@[simp] theorem setRangeEntry_inReset : (s.setRangeEntry m entry).inReset = s.inReset := rfl

/-! ### raise -/

@[simp] theorem raise_timebase : (s.raise m cause).timebase = s.timebase := rfl
@[simp] theorem raise_params : (s.raise m cause).params = s.params := rfl
@[simp] theorem raise_part : (s.raise m cause).part = s.part := rfl
@[simp] theorem raise_stations : (s.raise m cause).stations = s.stations := rfl
@[simp] theorem raise_windows : (s.raise m cause).windows = s.windows := rfl
@[simp] theorem raise_rrPointer : (s.raise m cause).rrPointer = s.rrPointer := rfl
@[simp] theorem raise_busError : (s.raise m cause).busError = s.busError := rfl
@[simp] theorem raise_straps : (s.raise m cause).straps = s.straps := rfl
@[simp] theorem raise_resetPin : (s.raise m cause).resetPin = s.resetPin := rfl
@[simp] theorem raise_busReset : (s.raise m cause).busReset = s.busReset := rfl
@[simp] theorem raise_bus : (s.raise m cause).bus = s.bus := rfl
@[simp] theorem raise_pending : (s.raise m cause).pending = s.pending := rfl
@[simp] theorem raise_station : (s.raise m cause).station n = s.station n := rfl
@[simp] theorem raise_held : (s.raise m cause).held = s.held := rfl
@[simp] theorem raise_inReset : (s.raise m cause).inReset = s.inReset := rfl

/-! ### raiseAll -/

@[simp] theorem raiseAll_timebase : (s.raiseAll cause).timebase = s.timebase := rfl
@[simp] theorem raiseAll_params : (s.raiseAll cause).params = s.params := rfl
@[simp] theorem raiseAll_part : (s.raiseAll cause).part = s.part := rfl
@[simp] theorem raiseAll_stations : (s.raiseAll cause).stations = s.stations := rfl
@[simp] theorem raiseAll_windows : (s.raiseAll cause).windows = s.windows := rfl
@[simp] theorem raiseAll_rrPointer : (s.raiseAll cause).rrPointer = s.rrPointer := rfl
@[simp] theorem raiseAll_busError : (s.raiseAll cause).busError = s.busError := rfl
@[simp] theorem raiseAll_straps : (s.raiseAll cause).straps = s.straps := rfl
@[simp] theorem raiseAll_resetPin : (s.raiseAll cause).resetPin = s.resetPin := rfl
@[simp] theorem raiseAll_busReset : (s.raiseAll cause).busReset = s.busReset := rfl
@[simp] theorem raiseAll_bus : (s.raiseAll cause).bus = s.bus := rfl
@[simp] theorem raiseAll_pending : (s.raiseAll cause).pending = s.pending := rfl
@[simp] theorem raiseAll_station : (s.raiseAll cause).station n = s.station n := rfl
@[simp] theorem raiseAll_held : (s.raiseAll cause).held = s.held := rfl
@[simp] theorem raiseAll_inReset : (s.raiseAll cause).inReset = s.inReset := rfl

/-! ### postResult -/

@[simp] theorem postResult_timebase : (s.postResult m code st v).timebase = s.timebase := rfl
@[simp] theorem postResult_params : (s.postResult m code st v).params = s.params := rfl
@[simp] theorem postResult_part : (s.postResult m code st v).part = s.part := rfl
@[simp] theorem postResult_stations : (s.postResult m code st v).stations = s.stations := rfl
@[simp] theorem postResult_windows : (s.postResult m code st v).windows = s.windows := rfl
@[simp] theorem postResult_rrPointer : (s.postResult m code st v).rrPointer = s.rrPointer := rfl
@[simp] theorem postResult_busError : (s.postResult m code st v).busError = s.busError := rfl
@[simp] theorem postResult_straps : (s.postResult m code st v).straps = s.straps := rfl
@[simp] theorem postResult_resetPin : (s.postResult m code st v).resetPin = s.resetPin := rfl
@[simp] theorem postResult_busReset : (s.postResult m code st v).busReset = s.busReset := rfl
@[simp] theorem postResult_bus : (s.postResult m code st v).bus = s.bus := rfl
@[simp] theorem postResult_pending : (s.postResult m code st v).pending = s.pending := rfl
@[simp] theorem postResult_station : (s.postResult m code st v).station n = s.station n := rfl
@[simp] theorem postResult_held : (s.postResult m code st v).held = s.held := rfl
@[simp] theorem postResult_inReset : (s.postResult m code st v).inReset = s.inReset := rfl

/-! ### complete -/

@[simp] theorem complete_timebase : (s.complete m st v).timebase = s.timebase := rfl
@[simp] theorem complete_params : (s.complete m st v).params = s.params := rfl
@[simp] theorem complete_part : (s.complete m st v).part = s.part := rfl
@[simp] theorem complete_stations : (s.complete m st v).stations = s.stations := rfl
@[simp] theorem complete_windows : (s.complete m st v).windows = s.windows := rfl
@[simp] theorem complete_rrPointer : (s.complete m st v).rrPointer = s.rrPointer := rfl
@[simp] theorem complete_busError : (s.complete m st v).busError = s.busError := rfl
@[simp] theorem complete_straps : (s.complete m st v).straps = s.straps := rfl
@[simp] theorem complete_resetPin : (s.complete m st v).resetPin = s.resetPin := rfl
@[simp] theorem complete_busReset : (s.complete m st v).busReset = s.busReset := rfl
@[simp] theorem complete_bus : (s.complete m st v).bus = s.bus := rfl
@[simp] theorem complete_pending : (s.complete m st v).pending = s.pending := rfl
@[simp] theorem complete_station : (s.complete m st v).station n = s.station n := rfl
@[simp] theorem complete_held : (s.complete m st v).held = s.held := rfl
@[simp] theorem complete_inReset : (s.complete m st v).inReset = s.inReset := rfl

/-! ### completeBare -/

@[simp] theorem completeBare_timebase : (s.completeBare m st).timebase = s.timebase := rfl
@[simp] theorem completeBare_params : (s.completeBare m st).params = s.params := rfl
@[simp] theorem completeBare_part : (s.completeBare m st).part = s.part := rfl
@[simp] theorem completeBare_stations : (s.completeBare m st).stations = s.stations := rfl
@[simp] theorem completeBare_windows : (s.completeBare m st).windows = s.windows := rfl
@[simp] theorem completeBare_rrPointer : (s.completeBare m st).rrPointer = s.rrPointer := rfl
@[simp] theorem completeBare_busError : (s.completeBare m st).busError = s.busError := rfl
@[simp] theorem completeBare_straps : (s.completeBare m st).straps = s.straps := rfl
@[simp] theorem completeBare_resetPin : (s.completeBare m st).resetPin = s.resetPin := rfl
@[simp] theorem completeBare_busReset : (s.completeBare m st).busReset = s.busReset := rfl
@[simp] theorem completeBare_bus : (s.completeBare m st).bus = s.bus := rfl
@[simp] theorem completeBare_pending : (s.completeBare m st).pending = s.pending := rfl
@[simp] theorem completeBare_station : (s.completeBare m st).station n = s.station n := rfl
@[simp] theorem completeBare_held : (s.completeBare m st).held = s.held := rfl
@[simp] theorem completeBare_inReset : (s.completeBare m st).inReset = s.inReset := rfl

/-! ### noteCode -/

@[simp] theorem noteCode_timebase : (s.noteCode m value).timebase = s.timebase := rfl
@[simp] theorem noteCode_params : (s.noteCode m value).params = s.params := rfl
@[simp] theorem noteCode_part : (s.noteCode m value).part = s.part := rfl
@[simp] theorem noteCode_stations : (s.noteCode m value).stations = s.stations := rfl
@[simp] theorem noteCode_windows : (s.noteCode m value).windows = s.windows := rfl
@[simp] theorem noteCode_rrPointer : (s.noteCode m value).rrPointer = s.rrPointer := rfl
@[simp] theorem noteCode_busError : (s.noteCode m value).busError = s.busError := rfl
@[simp] theorem noteCode_straps : (s.noteCode m value).straps = s.straps := rfl
@[simp] theorem noteCode_resetPin : (s.noteCode m value).resetPin = s.resetPin := rfl
@[simp] theorem noteCode_busReset : (s.noteCode m value).busReset = s.busReset := rfl
@[simp] theorem noteCode_bus : (s.noteCode m value).bus = s.bus := rfl
@[simp] theorem noteCode_pending : (s.noteCode m value).pending = s.pending := rfl
@[simp] theorem noteCode_station : (s.noteCode m value).station n = s.station n := rfl
@[simp] theorem noteCode_held : (s.noteCode m value).held = s.held := rfl
@[simp] theorem noteCode_inReset : (s.noteCode m value).inReset = s.inReset := rfl

/-! ### modWindow -/

@[simp] theorem modWindow_timebase : (s.modWindow w fw).timebase = s.timebase := rfl
@[simp] theorem modWindow_params : (s.modWindow w fw).params = s.params := rfl
@[simp] theorem modWindow_part : (s.modWindow w fw).part = s.part := rfl
@[simp] theorem modWindow_stations : (s.modWindow w fw).stations = s.stations := rfl
@[simp] theorem modWindow_contexts : (s.modWindow w fw).contexts = s.contexts := rfl
@[simp] theorem modWindow_rrPointer : (s.modWindow w fw).rrPointer = s.rrPointer := rfl
@[simp] theorem modWindow_busError : (s.modWindow w fw).busError = s.busError := rfl
@[simp] theorem modWindow_straps : (s.modWindow w fw).straps = s.straps := rfl
@[simp] theorem modWindow_resetPin : (s.modWindow w fw).resetPin = s.resetPin := rfl
@[simp] theorem modWindow_busReset : (s.modWindow w fw).busReset = s.busReset := rfl
@[simp] theorem modWindow_bus : (s.modWindow w fw).bus = s.bus := rfl
@[simp] theorem modWindow_pending : (s.modWindow w fw).pending = s.pending := rfl
@[simp] theorem modWindow_ctx : (s.modWindow w fw).ctx k = s.ctx k := rfl
@[simp] theorem modWindow_station : (s.modWindow w fw).station n = s.station n := rfl
@[simp] theorem modWindow_inReset : (s.modWindow w fw).inReset = s.inReset := rfl

/-! ### dropWindow -/

@[simp] theorem dropWindow_timebase : (s.dropWindow w).timebase = s.timebase := rfl
@[simp] theorem dropWindow_params : (s.dropWindow w).params = s.params := rfl
@[simp] theorem dropWindow_part : (s.dropWindow w).part = s.part := rfl
@[simp] theorem dropWindow_stations : (s.dropWindow w).stations = s.stations := rfl
@[simp] theorem dropWindow_rrPointer : (s.dropWindow w).rrPointer = s.rrPointer := rfl
@[simp] theorem dropWindow_busError : (s.dropWindow w).busError = s.busError := rfl
@[simp] theorem dropWindow_straps : (s.dropWindow w).straps = s.straps := rfl
@[simp] theorem dropWindow_resetPin : (s.dropWindow w).resetPin = s.resetPin := rfl
@[simp] theorem dropWindow_busReset : (s.dropWindow w).busReset = s.busReset := rfl
@[simp] theorem dropWindow_bus : (s.dropWindow w).bus = s.bus := rfl
@[simp] theorem dropWindow_pending : (s.dropWindow w).pending = s.pending := rfl
@[simp] theorem dropWindow_station : (s.dropWindow w).station n = s.station n := rfl
@[simp] theorem dropWindow_inReset : (s.dropWindow w).inReset = s.inReset := rfl

/-! ### answer -/

@[simp] theorem answer_timebase : (s.answer a d).timebase = s.timebase := rfl
@[simp] theorem answer_params : (s.answer a d).params = s.params := rfl
@[simp] theorem answer_part : (s.answer a d).part = s.part := rfl
@[simp] theorem answer_stations : (s.answer a d).stations = s.stations := rfl
@[simp] theorem answer_contexts : (s.answer a d).contexts = s.contexts := rfl
@[simp] theorem answer_windows : (s.answer a d).windows = s.windows := rfl
@[simp] theorem answer_rrPointer : (s.answer a d).rrPointer = s.rrPointer := rfl
@[simp] theorem answer_busError : (s.answer a d).busError = s.busError := rfl
@[simp] theorem answer_straps : (s.answer a d).straps = s.straps := rfl
@[simp] theorem answer_resetPin : (s.answer a d).resetPin = s.resetPin := rfl
@[simp] theorem answer_busReset : (s.answer a d).busReset = s.busReset := rfl
@[simp] theorem answer_pending : (s.answer a d).pending = s.pending := rfl
@[simp] theorem answer_ctx : (s.answer a d).ctx k = s.ctx k := rfl
@[simp] theorem answer_station : (s.answer a d).station n = s.station n := rfl
@[simp] theorem answer_held : (s.answer a d).held = s.held := rfl
@[simp] theorem answer_inReset : (s.answer a d).inReset = s.inReset := rfl

@[simp] theorem setTimebase_timebase : (s.setTimebase t).timebase = t := rfl
@[simp] theorem answer_bus : (s.answer a d).bus = ⟨a, d⟩ := rfl

end Sys2Proof.Machine.State
end

