-- ==== Sys2Proof/Laws/Bus.lean ====
section
/-! SUPPORT. What the Shelf Bus Interface's checks can answer: the window, the address parity check, the current window that
START counts from. -/

namespace Sys2Proof.Machine

namespace State

/-- The window is the 16,384 words from the base (R149). -/
theorem inWindow_iff (s : State) (address : WordAddress) :
    s.inWindow address = true ↔
      16384 * s.straps.base.toNat ≤ address.toNat ∧ address.toNat ≤ 16384 * s.straps.base.toNat + 16383 := by
  simp only [inWindow, beq_iff_eq]
  omega

/-- What the address parity check can do: nothing when it passes, a record and no acknowledge when it fails, no
acknowledge outside the window (R149, R151). -/
theorem checkAddress_cases (s : State) (address : WordAddress) (m : Slot) (d : Direction) (parity : Bool) :
    (s.inWindow address = false ∧ s.checkAddress address m d parity = s.answer .noAck none)
      ∨ (s.inWindow address = true ∧ addressParityOk address m d parity = true
          ∧ s.checkAddress address m d parity = s)
      ∨ (s.inWindow address = true ∧ addressParityOk address m d parity = false
          ∧ s.checkAddress address m d parity = (s.recordBusError .address address m d).answer .noAck none) := by
  unfold checkAddress
  cases s.inWindow address <;> cases addressParityOk address m d parity <;> simp

/-- With no boundary event waiting the current window is the one of the present network µs (R118). -/
theorem currentWindow_of_none {s : State} (h : s.timebase.boundaryDue = none) :
    s.currentWindow = s.timebase.us / (1000000 * s.params.windowLength) := by
  simp [currentWindow, h, Params.windowOf, Params.windowUs, million]

/-- While a boundary event waits the current window is the one that ends there (R118, R166). -/
theorem currentWindow_of_some {s : State} {b : Nat} (h : s.timebase.boundaryDue = some b) :
    s.currentWindow = (s.timebase.us - 1) / (1000000 * s.params.windowLength) := by
  simp [currentWindow, h, Params.windowOf, Params.windowUs, million]

/-- A word that the part answers goes with odd parity in each of its lanes (R153). -/
theorem lanes_odd {a : BusAnswer} {v : Word} (h : a.data = some v) :
    ∃ lanes : BitVec 4, a.lanes = some lanes ∧ lanesOk v lanes = true :=
  ⟨oddLanes v, by rw [BusAnswer.lanes, h]; rfl, lanesOk_oddLanes v⟩

end State

/-- While a reset line is asserted a transaction is not acknowledged and has no effect (R163, R173). -/
theorem onBus_of_inReset {s : State} (h : s.inReset = true) (f : State → State) :
    s.onBus f = s.answer .noAck none := by
  simp [State.onBus, h]

/-- While a reset line is asserted no event is taken (R173). -/
theorem onEvent_of_inReset {s : State} (h : s.inReset = true) (f : State → State) : s.onEvent f = s := by
  simp [State.onEvent, h]

end Sys2Proof.Machine
end

