-- ==== Sys2Proof/Laws/Contexts.lean ====
section
/-! SUPPORT. Reading the tables of the state after an update: contexts, stations, and what the small operations leave in
the context they change. -/

namespace Sys2Proof.Machine

@[simp] theorem vmap_getElem {α β : Type} {n : Nat} (f : α → β) (v : Vector α n) (i : Nat) (h : i < n) :
    (vmap f v)[i] = f v[i] := by
  simp [vmap, Vector.getElem_mk]

@[simp] theorem vmap_toList {α β : Type} {n : Nat} (f : α → β) (v : Vector α n) : (vmap f v).toList = v.toList.map f := by
  simp [vmap, Vector.toList]

theorem vmap_id {α : Type} {n : Nat} (v : Vector α n) : vmap (fun x => x) v = v := by
  ext i h
  simp

namespace State

/-! ### Contexts -/

theorem ctx_setCtx (s : State) (m k : Slot) (c : Context) :
    (s.setCtx m c).ctx k = if k = m then c else s.ctx k := by
  simp only [ctx, setCtx, Fin.getElem_fin, Vector.getElem_set, Fin.ext_iff, eq_comm]

@[simp] theorem ctx_setCtx_same (s : State) (m : Slot) (c : Context) : (s.setCtx m c).ctx m = c := by
  simp [ctx_setCtx]

theorem ctx_setCtx_of_ne {m k : Slot} (h : k ≠ m) (s : State) (c : Context) : (s.setCtx m c).ctx k = s.ctx k := by
  simp [ctx_setCtx, h]

@[simp] theorem setCtx_setCtx (s : State) (m : Slot) (c d : Context) : (s.setCtx m c).setCtx m d = s.setCtx m d := by
  simp [setCtx]

@[simp] theorem setCtx_ctx_self (s : State) (m : Slot) : s.setCtx m (s.ctx m) = s := by
  simp [setCtx, ctx]

@[simp] theorem ctx_modCtx_same (s : State) (m : Slot) (f : Context → Context) : (s.modCtx m f).ctx m = f (s.ctx m) := by
  simp [modCtx]

theorem ctx_modCtx_of_ne {m k : Slot} (h : k ≠ m) (s : State) (f : Context → Context) :
    (s.modCtx m f).ctx k = s.ctx k := by
  simp [modCtx, ctx_setCtx, h]

theorem modCtx_modCtx (s : State) (m : Slot) (f g : Context → Context) :
    (s.modCtx m f).modCtx m g = s.modCtx m fun c => g (f c) := by
  simp [modCtx]

@[simp] theorem ctx_modAllCtx (s : State) (f : Context → Context) (k : Slot) : (s.modAllCtx f).ctx k = f (s.ctx k) := by
  simp [modAllCtx, ctx]

/-- Two states that agree on every context have one table of contexts. -/
theorem contexts_ext {s t : State} (h : ∀ k : Slot, s.ctx k = t.ctx k) : s.contexts = t.contexts := by
  ext i hi
  exact h ⟨i, hi⟩

/-! ### Stations -/

theorem station_setStation (s : State) (n k : StationNo) (r : Station) :
    (s.setStation n r).station k = if k = n then r else s.station k := by
  simp only [station, setStation, Fin.getElem_fin, Vector.getElem_set, Fin.ext_iff, eq_comm]

@[simp] theorem station_setStation_same (s : State) (n : StationNo) (r : Station) : (s.setStation n r).station n = r := by
  simp [station_setStation]

theorem station_setStation_of_ne {n k : StationNo} (h : k ≠ n) (s : State) (r : Station) :
    (s.setStation n r).station k = s.station k := by
  simp [station_setStation, h]

@[simp] theorem station_modStation_same (s : State) (n : StationNo) (f : Station → Station) :
    (s.modStation n f).station n = f (s.station n) := by
  simp [modStation]

theorem station_modStation_of_ne {n k : StationNo} (h : k ≠ n) (s : State) (f : Station → Station) :
    (s.modStation n f).station k = s.station k := by
  simp [modStation, station_setStation, h]

theorem modStation_modStation (s : State) (n : StationNo) (f g : Station → Station) :
    (s.modStation n f).modStation n g = s.modStation n fun r => g (f r) := by
  simp [modStation, setStation, station]

@[simp] theorem station_modAllStations (s : State) (f : Station → Station) (k : StationNo) :
    (s.modAllStations f).station k = f (s.station k) := by
  simp [modAllStations, station]

theorem stations_ext {s t : State} (h : ∀ k : StationNo, s.station k = t.station k) : s.stations = t.stations := by
  ext i hi
  exact h ⟨i, hi⟩

/-! ### The small operations on one context -/

@[simp] theorem ctx_modIntake_same (s : State) (m : Slot) (f : Intake → Intake) :
    (s.modIntake m f).ctx m = { s.ctx m with intake := f (s.ctx m).intake } := by
  simp [modIntake]

@[simp] theorem ctx_modCapture_same (s : State) (m : Slot) (f : Capture → Capture) :
    (s.modCapture m f).ctx m = { s.ctx m with capture := f (s.ctx m).capture } := by
  simp [modCapture]

@[simp] theorem ctx_modReader_same (s : State) (m : Slot) (f : Reader → Reader) :
    (s.modReader m f).ctx m = { s.ctx m with reader := f (s.ctx m).reader } := by
  simp [modReader]

@[simp] theorem ctx_modAttention_same (s : State) (m : Slot) (f : Attention → Attention) :
    (s.modAttention m f).ctx m = { s.ctx m with attention := f (s.ctx m).attention } := by
  simp [modAttention]

@[simp] theorem ctx_modRequest_same (s : State) (m : Slot) (f : RequestSlot → RequestSlot) :
    (s.modRequest m f).ctx m = { s.ctx m with request := f (s.ctx m).request } := by
  simp [modRequest]

@[simp] theorem ctx_setRangeEntry_same (s : State) (m : Slot) (r : Option Range) :
    (s.setRangeEntry m r).ctx m = { s.ctx m with range := r } := by
  simp [setRangeEntry]

/-- What a raise leaves: one flag set at one slot (R139). -/
theorem ctx_raise (s : State) (m k : Slot) (c : Cause) :
    (s.raise m c).ctx k =
      if k = m then { s.ctx m with attention := (s.ctx m).attention.raise c } else s.ctx k := by
  simp [raise, modAttention, modCtx, ctx_setCtx]

/-- What a raise at every slot leaves (R14). -/
@[simp] theorem ctx_raiseAll (s : State) (c : Cause) (k : Slot) :
    (s.raiseAll c).ctx k = { s.ctx k with attention := (s.ctx k).attention.raise c } := by
  simp [raiseAll]

/-- What a completion leaves in the context of its slot (R159); every other context stands. -/
theorem ctx_complete (s : State) (m k : Slot) (st : Status) (v : Values) :
    (s.complete m st v).ctx k =
      if k = m then
        { s.ctx m with
          request := { (s.ctx m).request with
            inFlight := false,
            result := ⟨(s.ctx m).request.lastCode, (s.ctx m).request.number, st, v⟩ }
          attention := (s.ctx m).attention.raise .requestDone }
      else s.ctx k := by
  by_cases h : k = m
  · subst h
    simp [complete, postResult, ctx_raise, modRequest]
  · simp [complete, postResult, ctx_raise, modRequest, h, ctx_modCtx_of_ne h]

/-- A change of the Timebase raises TIMEBASE at every slot when it changes the discipline state, and raises nothing
otherwise (R14). -/
theorem withTimebase_eq (s : State) (t : Timebase) :
    s.withTimebase t =
      if t.discipline = s.timebase.discipline then s.setTimebase t else (s.setTimebase t).raiseAll .timebase := rfl

@[simp] theorem withTimebase_timebase (s : State) (t : Timebase) : (s.withTimebase t).timebase = t := by
  unfold withTimebase
  split <;> rfl

end State

end Sys2Proof.Machine
end

