-- ==== Sys2Proof/Laws/Flags.lean ====
section
/-! SUPPORT. What raising, clearing, writing and polling do to each flag (R139 to R145). -/

namespace Sys2Proof.Machine.Attention

variable (a : Attention) (c : Cause)

@[simp] theorem raise_enables : (a.raise c).enables = a.enables := rfl
@[simp] theorem clear_enables : (a.clear c).enables = a.enables := rfl
@[simp] theorem clearOnes_enables (ones : BitVec 6) : (a.clearOnes ones).enables = a.enables := rfl

/-- A raise sets its own flag and leaves the others (R139). -/
theorem getLsbD_raise {i : Nat} (h : i < 6) :
    (a.raise c).pending.getLsbD i = (a.pending.getLsbD i || decide (i = c.index)) := by
  have h : i = 0 ∨ i = 1 ∨ i = 2 ∨ i = 3 ∨ i = 4 ∨ i = 5 := by omega
  rcases h with rfl | rfl | rfl | rfl | rfl | rfl <;> cases c <;> simp [raise, Cause.mask, Cause.index]

/-- A clear clears its own flag and leaves the others. -/
theorem getLsbD_clear {i : Nat} (h : i < 6) :
    (a.clear c).pending.getLsbD i = (a.pending.getLsbD i && decide (i ≠ c.index)) := by
  have h : i = 0 ∨ i = 1 ∨ i = 2 ∨ i = 3 ∨ i = 4 ∨ i = 5 := by omega
  rcases h with rfl | rfl | rfl | rfl | rfl | rfl <;> cases c <;> simp [clear, Cause.mask, Cause.index]

/-- A write of ones clears the flags written as one, CLOSED excepted (R143). -/
theorem getLsbD_clearOnes (ones : BitVec 6) {i : Nat} (h : i < 6) :
    (a.clearOnes ones).pending.getLsbD i = (a.pending.getLsbD i && (decide (i = 3) || !ones.getLsbD i)) := by
  have h : i = 0 ∨ i = 1 ∨ i = 2 ∨ i = 3 ∨ i = 4 ∨ i = 5 := by omega
  rcases h with rfl | rfl | rfl | rfl | rfl | rfl <;> simp [clearOnes, Cause.mask, Cause.index]

@[simp] theorem polled_enables : a.polled.enables = a.enables := by
  unfold polled
  split <;> rfl

/-- Nothing is reported exactly when no cause is both pending and enabled (R144). -/
theorem reported_eq_none : a.reported = none ↔ ∀ c : Cause, (a.isPending c && a.isEnabled c) = false := by
  unfold reported
  rw [List.find?_eq_none]
  constructor
  · intro h c
    have := h c (by cases c <;> simp [Cause.byPriority])
    simpa using this
  · intro h c _
    simp [h c]

/-- A poll clears the reported cause unless it is CLOSED (R144). -/
theorem polled_of_reported {c : Cause} (h : a.reported = some c) :
    a.polled = if c = .closed then a else a.clear c := by
  unfold polled
  rw [h]
  cases c <;> rfl

end Sys2Proof.Machine.Attention
end

