-- ==== Sys2Proof/Laws/Windows.lean ====
section
/-! SUPPORT. The Window Store's shared operations: what each of them can do. `WindowStep` (Safety) says once that an
operation changes nothing but the ring, the readers' state and the pending flags; the rest says what happens to the ring. -/

namespace Sys2Proof.Machine

namespace WindowStep

theorem refl (s : State) : WindowStep s s := ⟨⟨s.windows, s.contexts, rfl⟩, fun k => ⟨(s.ctx k).reader, _, rfl⟩⟩

theorem trans {s t u : State} (h : WindowStep s t) (h' : WindowStep t u) : WindowStep s u := by
  obtain ⟨⟨ws, cs, ht⟩, hc⟩ := h
  obtain ⟨⟨ws', cs', hu⟩, hc'⟩ := h'
  refine ⟨⟨ws', cs', by rw [hu, ht]⟩, fun k => ?_⟩
  obtain ⟨r, p, h1⟩ := hc k
  obtain ⟨r', p', h2⟩ := hc' k
  exact ⟨r', p', by rw [h2, h1]⟩

theorem foldl {α : Type} {f : State → α → State} (h : ∀ s a, WindowStep s (f s a)) (l : List α) (s : State) :
    WindowStep s (l.foldl f s) := by
  induction l generalizing s with
  | nil => exact refl s
  | cons a l ih => exact (h s a).trans (ih _)

/-- A change of windows alone. -/
theorem of_windows (s : State) (ws : Vector (Option Window) 64) : WindowStep s { s with windows := ws } :=
  ⟨⟨ws, s.contexts, rfl⟩, fun k => ⟨(s.ctx k).reader, _, rfl⟩⟩

/-- A change of one slot's reader state and pending flags. -/
theorem of_modCtx {s : State} {m : Slot} {f : Context → Context}
    (h : ∀ c, ∃ r p, f c = { c with reader := r, attention := { c.attention with pending := p } }) :
    WindowStep s (s.modCtx m f) := by
  refine ⟨⟨s.windows, _, rfl⟩, fun k => ?_⟩
  by_cases hk : k = m
  · subst hk
    simpa using h (s.ctx k)
  · exact ⟨(s.ctx k).reader, (s.ctx k).attention.pending, by rw [State.ctx_modCtx_of_ne hk]⟩

variable {s t : State} (h : WindowStep s t)
include h

theorem timebase : t.timebase = s.timebase := by obtain ⟨⟨_, _, rfl⟩, _⟩ := h; rfl
theorem params : t.params = s.params := by obtain ⟨⟨_, _, rfl⟩, _⟩ := h; rfl
theorem part : t.part = s.part := by obtain ⟨⟨_, _, rfl⟩, _⟩ := h; rfl
theorem stations : t.stations = s.stations := by obtain ⟨⟨_, _, rfl⟩, _⟩ := h; rfl
theorem rrPointer : t.rrPointer = s.rrPointer := by obtain ⟨⟨_, _, rfl⟩, _⟩ := h; rfl
theorem busError : t.busError = s.busError := by obtain ⟨⟨_, _, rfl⟩, _⟩ := h; rfl
theorem straps : t.straps = s.straps := by obtain ⟨⟨_, _, rfl⟩, _⟩ := h; rfl
theorem resetPin : t.resetPin = s.resetPin := by obtain ⟨⟨_, _, rfl⟩, _⟩ := h; rfl
theorem busReset : t.busReset = s.busReset := by obtain ⟨⟨_, _, rfl⟩, _⟩ := h; rfl
theorem bus : t.bus = s.bus := by obtain ⟨⟨_, _, rfl⟩, _⟩ := h; rfl
theorem pending : t.pending = s.pending := by obtain ⟨⟨_, _, rfl⟩, _⟩ := h; rfl
theorem station (n : StationNo) : t.station n = s.station n := by obtain ⟨⟨_, _, rfl⟩, _⟩ := h; rfl

theorem range (k : Slot) : (t.ctx k).range = (s.ctx k).range := by obtain ⟨_, _, hc⟩ := h.2 k; rw [hc]
theorem capture (k : Slot) : (t.ctx k).capture = (s.ctx k).capture := by obtain ⟨_, _, hc⟩ := h.2 k; rw [hc]
theorem intake (k : Slot) : (t.ctx k).intake = (s.ctx k).intake := by obtain ⟨_, _, hc⟩ := h.2 k; rw [hc]
theorem request (k : Slot) : (t.ctx k).request = (s.ctx k).request := by obtain ⟨_, _, hc⟩ := h.2 k; rw [hc]
theorem enables (k : Slot) : (t.ctx k).attention.enables = (s.ctx k).attention.enables := by
  obtain ⟨_, _, hc⟩ := h.2 k; rw [hc]
theorem owns (k : Slot) (n : StationNo) : t.owns k n = s.owns k n := by simp only [State.owns, h.range]

end WindowStep

namespace State

/-! ### What each operation may change -/

theorem modReader_step (s : State) (m : Slot) (f : Reader → Reader) : WindowStep s (s.modReader m f) :=
  .of_modCtx fun c => ⟨f c.reader, c.attention.pending, rfl⟩

theorem raise_step (s : State) (m : Slot) (c : Cause) : WindowStep s (s.raise m c) :=
  .of_modCtx fun x => ⟨x.reader, _, rfl⟩

theorem modWindow_step (s : State) (n : Nat) (f : Window → Window) : WindowStep s (s.modWindow n f) := .of_windows s _

theorem handNotice_step (s : State) (m : Slot) (nt : Notice) : WindowStep s (s.handNotice m nt) := by
  unfold handNotice
  dsimp only
  split
  · split
    · exact (modReader_step s m _).trans (raise_step _ m _)
    · exact modReader_step s m _
  · exact modReader_step s m _

theorem closeWindow_step (s : State) (n : Nat) (reason : CloseReason) : WindowStep s (s.closeWindow n reason) := by
  unfold closeWindow
  split
  · split
    · exact (modWindow_step s n _).trans (.foldl (fun t m => handNotice_step t m _) _ _)
    · exact .refl s
  · exact .refl s

theorem completenessCheck_step (s : State) (n : Nat) : WindowStep s (s.completenessCheck n) := by
  unfold completenessCheck
  split
  · split
    · exact closeWindow_step s n _
    · exact .refl s
  · exact .refl s

theorem dropWindow_step (s : State) (n : Nat) : WindowStep s (s.dropWindow n) := by
  refine ⟨⟨_, _, rfl⟩, fun k => ?_⟩
  have h : (s.dropWindow n).ctx k =
      { s.ctx k with reader := { (s.ctx k).reader with cursor := (s.ctx k).reader.cursor.lose n } } := by
    rw [dropWindow, ctx_modAllCtx]
    rfl
  exact ⟨_, _, h⟩

theorem missWindow_step (s : State) (m : Slot) (n : Nat) : WindowStep s (s.missWindow m n) :=
  (modReader_step s m _).trans (raise_step _ m _)

theorem reclaim_step (s : State) (n : Nat) : WindowStep s (s.reclaim n) := by
  unfold reclaim
  split
  · exact (WindowStep.foldl (fun t m => missWindow_step t m n) _ _).trans (dropWindow_step _ n)
  · exact .refl s

theorem reclaimFor_step (need fuel : Nat) (s : State) : WindowStep s (s.reclaimFor need fuel) := by
  induction fuel generalizing s with
  | zero => exact .refl s
  | succ fuel ih =>
    unfold reclaimFor
    split
    · exact .refl s
    · split
      · exact .refl s
      · exact (reclaim_step s _).trans (ih _)

theorem releaseWindow_step (s : State) (m : Slot) (n : Nat) : WindowStep s (s.releaseWindow m n).1 := by
  unfold releaseWindow
  dsimp only
  split
  · split
    · exact (modWindow_step s n _).trans (dropWindow_step _ n)
    · exact modWindow_step s n _
  · exact modWindow_step s n _

theorem releaseAll_step (s : State) (m : Slot) : WindowStep s (s.releaseAll m).1 := by
  have h : ∀ (l : List Nat) (p : State × Nat),
      WindowStep p.1 (l.foldl (fun p n => ((p.1.releaseWindow m n).1, p.2 + (p.1.releaseWindow m n).2.toNat)) p).1 := by
    intro l
    induction l with
    | nil => exact fun p => .refl p.1
    | cons n l ih => exact fun p => (releaseWindow_step p.1 m n).trans (ih _)
  exact h _ (s, 0)

theorem openInFreeSlot_step (s : State) (w : Nat) : WindowStep s (s.openInFreeSlot w) := by
  unfold openInFreeSlot
  split
  · exact .of_windows s _
  · exact .refl s

theorem openWindow_step (s : State) (w : Nat) : WindowStep s (s.openWindow w) := by
  unfold openWindow
  split
  · exact (reclaim_step s _).trans (openInFreeSlot_step _ w)
  · exact openInFreeSlot_step s w

theorem removeExpectedIn_step (s : State) (st : StationNo) (n : Nat) : WindowStep s (s.removeExpectedIn st n) := by
  unfold removeExpectedIn
  split
  · split
    · exact (modWindow_step s n _).trans (completenessCheck_step _ n)
    · exact .refl s
  · exact .refl s

theorem removeExpected_step (s : State) (st : StationNo) : WindowStep s (s.removeExpected st) :=
  .foldl (fun t n => removeExpectedIn_step t st n) _ _

theorem endCheck_step (s : State) (now n : Nat) : WindowStep s (s.endCheck now n) := by
  unfold endCheck
  dsimp only
  split
  · split
    · exact ((modWindow_step s n _).trans (completenessCheck_step _ n)).trans (closeWindow_step _ n _)
    · exact (modWindow_step s n _).trans (completenessCheck_step _ n)
  · exact .refl s

theorem windowBoundary_step (s : State) (b : Nat) : WindowStep s (s.windowBoundary b) := by
  unfold windowBoundary
  dsimp only
  split
  · have h := WindowStep.foldl (fun t n => endCheck_step t s.timebase.us n)
      (s.openNumbers.filter fun n => decide (n < b)) s
    split
    · exact h.trans (openWindow_step _ _)
    · exact h
  · exact .refl s

theorem flushAll_step (s : State) : WindowStep s s.flushAll := .foldl (fun t n => closeWindow_step t n _) _ _

/-! ### The ring -/

theorem held_eq (s : State) : s.held = s.windows.toList.filterMap id := rfl

theorem held_modWindow (s : State) (n : Nat) (f : Window → Window) :
    (s.modWindow n f).held = s.held.map fun w => if w.number = n then f w else w := by
  simp only [held, modWindow, vmap_toList, List.filterMap_map, List.map_filterMap]
  rfl

theorem held_dropWindow (s : State) (n : Nat) :
    (s.dropWindow n).held = s.held.filter fun w => w.number != n := by
  simp only [held, dropWindow, modAllCtx, vmap_toList, List.filterMap_map, List.filter_filterMap]
  congr 1

/-- A window that is found is held under that number. -/
theorem findWindow_some {s : State} {n : Nat} {w : Window} (h : s.findWindow n = some w) :
    w ∈ s.held ∧ w.number = n := by
  refine ⟨List.mem_of_find?_eq_some h, ?_⟩
  have := List.find?_some h
  simpa using this

theorem findWindow_none {s : State} {n : Nat} : s.findWindow n = none ↔ ∀ w ∈ s.held, w.number ≠ n := by
  simp [findWindow]

/-- With no number held twice, a window held is the one found under its number. -/
theorem findWindow_of_mem {s : State} {w : Window} (hn : (s.held.map Window.number).Nodup) (h : w ∈ s.held) :
    s.findWindow w.number = some w := by
  unfold findWindow
  have key : ∀ l : List Window, (l.map Window.number).Nodup → w ∈ l → l.find? (fun x => x.number == w.number) = some w := by
    intro l
    induction l with
    | nil => intro _ hw; cases hw
    | cons a l ih =>
      intro hd hw
      rw [List.map_cons, List.nodup_cons] at hd
      rw [List.find?_cons]
      rcases List.mem_cons.mp hw with rfl | hw
      · simp
      · have : a.number ≠ w.number := fun he => hd.1 (he ▸ List.mem_map_of_mem hw)
        rw [beq_false_of_ne this]
        exact ih hd.2 hw
  exact key _ hn h

theorem numbers_modWindow {s : State} {n : Nat} {f : Window → Window} (hf : ∀ w, (f w).number = w.number) :
    (s.modWindow n f).held.map Window.number = s.held.map Window.number := by
  rw [held_modWindow, List.map_map]
  refine List.map_congr_left fun w _ => ?_
  simp only [Function.comp]
  split <;> simp [hf]

theorem mem_openNumbers {s : State} {n : Nat} : n ∈ s.openNumbers ↔ ∃ w ∈ s.held, w.isOpen = true ∧ w.number = n := by
  simp [openNumbers, numbersWhere, and_assoc]

theorem mem_closedNumbers {s : State} {n : Nat} :
    n ∈ s.closedNumbers ↔ ∃ w ∈ s.held, w.isOpen = false ∧ w.number = n := by
  simp [closedNumbers, numbersWhere, and_assoc]

/-- The Store holds window n OPEN when an OPEN window of that number is found. -/
theorem holdsOpen_iff {s : State} {n : Nat} :
    s.holdsOpen n = true ↔ ∃ w, s.findWindow n = some w ∧ w.isOpen = true := by
  simp [holdsOpen, Option.any_eq_true]

/-- The windows that handing a notice leaves: all of them. -/
theorem handNotice_windows (s : State) (m : Slot) (nt : Notice) : (s.handNotice m nt).windows = s.windows := by
  unfold handNotice
  dsimp only
  split
  · split <;> rfl
  · rfl

theorem foldl_handNotice_windows (l : List Slot) (s : State) (nt : Notice) :
    (l.foldl (fun t m => t.handNotice m nt) s).windows = s.windows := by
  induction l generalizing s with
  | nil => rfl
  | cons m l ih => rw [List.foldl_cons, ih, handNotice_windows]

/-- What closing an OPEN window does to the ring (R114): that window CLOSED with its reason and its pending set. -/
theorem closeWindow_windows {s : State} {n : Nat} {w : Window} (hw : s.findWindow n = some w) (ho : w.isOpen = true)
    (reason : CloseReason) :
    (s.closeWindow n reason).windows =
      (s.modWindow n fun w => { w with closed := some reason, pending := s.enrolledSlots }).windows := by
  simp only [closeWindow, hw, ho, if_true]
  exact foldl_handNotice_windows _ _ _

/-- Closing a window that is not held OPEN does nothing. -/
theorem closeWindow_of_not_open {s : State} {n : Nat} (h : s.holdsOpen n = false) (reason : CloseReason) :
    s.closeWindow n reason = s := by
  unfold closeWindow
  split
  · rename_i w hw
    have : w.isOpen = false := by
      cases hq : w.isOpen
      · rfl
      · rw [holdsOpen_iff.mpr ⟨w, hw, hq⟩] at h
        cases h
    simp [this]
  · rfl

/-- What taking a notice does to a slot's reader state (R125). -/
theorem handNotice_reader (s : State) (m : Slot) (nt : Notice) :
    ((s.handNotice m nt).ctx m).reader =
      if (s.ctx m).reader.notices.length < 8 then
        { (s.ctx m).reader with notices := (s.ctx m).reader.notices ++ [nt] }
      else { (s.ctx m).reader with overflow := true } := by
  unfold handNotice
  dsimp only
  split
  · split <;> simp [ctx_raise]
  · simp

/-- Handing a notice to one slot leaves the context of every other slot. -/
theorem ctx_handNotice_of_ne {m k : Slot} (h : k ≠ m) (s : State) (nt : Notice) :
    (s.handNotice m nt).ctx k = s.ctx k := by
  unfold handNotice
  dsimp only
  split
  · split <;> simp [ctx_raise, h, modReader, ctx_modCtx_of_ne h]
  · simp [modReader, ctx_modCtx_of_ne h]

/-! ### The terms of Safety -/

theorem held_closing (s : State) (f : Window → Window) : (s.closing f).held = s.held.map f := by
  simp only [held, closing, vmap_toList, List.filterMap_map, List.map_filterMap]
  rfl

theorem held_without (s : State) (gone : Window → Bool) :
    (s.without gone).held = s.held.filter fun w => !gone w := by
  simp only [held, without, vmap_toList, List.filterMap_map, List.filter_filterMap]
  congr 1

/-- A window that is lost, and it alone, is no longer held (R117). -/
theorem held_losing (s : State) (w : Window) :
    (s.losing w).held = s.held.filter fun x => !(x.number == w.number) := by
  rw [losing, held_without]
  rfl

theorem ctx_closing (s : State) (f : Window → Window) :
    ∃ notices : List Notice, ∀ m : Slot, (s.closing f).ctx m = (s.ctx m).handed notices :=
  ⟨_, fun m => vmap_getElem _ s.contexts m.val m.isLt⟩

/-- Changing and closing windows reaches the ring, the reader states and the pending flags. -/
theorem closing_step (s : State) (f : Window → Window) : WindowStep s (s.closing f) := by
  refine ⟨⟨_, _, rfl⟩, fun k => ?_⟩
  obtain ⟨notices, h⟩ := ctx_closing s f
  rw [h k, Context.handed]
  split
  · exact ⟨_, _, rfl⟩
  · exact ⟨(s.ctx k).reader, (s.ctx k).attention.pending, rfl⟩

/-- What an enrolled slot's context is after it has taken a notice (R125, R140). -/
theorem ctx_handNotice_same {s : State} {m : Slot} (h : (s.ctx m).reader.enrolled = true) (nt : Notice) :
    (s.handNotice m nt).ctx m = (s.ctx m).handed [nt] := by
  have hmask : Cause.closed.mask = 0x08#6 := rfl
  unfold handNotice Context.handed
  dsimp only
  rw [if_pos h]
  by_cases hl : (s.ctx m).reader.notices.length < 8
  · obtain ⟨k, hk⟩ : ∃ k, 8 - (s.ctx m).reader.notices.length = k + 1 := ⟨7 - (s.ctx m).reader.notices.length, by omega⟩
    rw [if_pos hl, hk]
    by_cases he : (s.ctx m).reader.notices = []
    · simp [he, ctx_raise, Attention.raise, hmask]
    · simp [he]
  · have h0 : 8 - (s.ctx m).reader.notices.length = 0 := by omega
    have he : (s.ctx m).reader.notices ≠ [] := fun e => hl (by rw [e]; decide)
    rw [if_neg hl, h0]
    simp [he]

theorem ctx_foldl_handNotice (l : List Slot) (hl : l.Nodup) (s : State)
    (he : ∀ m ∈ l, (s.ctx m).reader.enrolled = true) (nt : Notice) (k : Slot) :
    (l.foldl (fun t m => t.handNotice m nt) s).ctx k = if k ∈ l then (s.ctx k).handed [nt] else s.ctx k := by
  induction l generalizing s with
  | nil => simp
  | cons m l ih =>
    obtain ⟨hm, hl⟩ := List.nodup_cons.mp hl
    have hne : ∀ j ∈ l, j ≠ m := fun j hj e => hm (e ▸ hj)
    rw [List.foldl_cons, ih hl (s.handNotice m nt)
      fun j hj => by rw [ctx_handNotice_of_ne (hne j hj)]; exact he j (List.mem_cons_of_mem _ hj)]
    by_cases hk : k = m
    · subst hk
      rw [if_neg hm, if_pos List.mem_cons_self, ctx_handNotice_same (he k List.mem_cons_self)]
    · rw [ctx_handNotice_of_ne hk]
      simp [List.mem_cons, hk]

/-- Of windows of different numbers, the change of one OPEN window that closes it closes that one alone. -/
theorem filter_closes {l : List Window} (hd : (l.map Window.number).Nodup) {w : Window} (hw : w ∈ l)
    (ho : w.isOpen = true) {g : Window → Window} (hg : (g w).isOpen = false) :
    l.filter (fun x => x.isOpen && !(if x.number = w.number then g x else x).isOpen) = [w] := by
  induction l with
  | nil => cases hw
  | cons a l ih =>
    rw [List.map_cons, List.nodup_cons] at hd
    by_cases ha : a.number = w.number
    · have haw : a = w := by
        rcases List.mem_cons.mp hw with h | h
        · exact h.symm
        · exact absurd (ha ▸ List.mem_map_of_mem h) hd.1
      subst haw
      rw [List.filter_cons_of_pos (by simp [ho, hg]), List.filter_eq_nil_iff.mpr]
      intro x hx
      have : x.number ≠ a.number := fun e => hd.1 (e ▸ List.mem_map_of_mem hx)
      cases hq : x.isOpen <;> simp [this, hq]
    · have hwl : w ∈ l := by
        rcases List.mem_cons.mp hw with h | h
        · exact absurd (h ▸ rfl) ha
        · exact h
      rw [List.filter_cons_of_neg (by cases hq : a.isOpen <;> simp [ha, hq]), ih hd.2 hwl]

/-- Closing an OPEN window: that window shut for its reason and owed to the enrolled slots, each of which is handed its
notice, and nothing else (R114, R125). -/
theorem closeWindow_eq_closing {s : State} (hd : (s.held.map Window.number).Nodup) {w : Window} (hw : w ∈ s.held)
    (ho : w.isOpen = true) (reason : CloseReason) :
    s.closeWindow w.number reason =
      s.closing fun x => if x.number = w.number then x.shut reason s.readersEnrolled else x := by
  have hf := findWindow_of_mem hd hw
  obtain ⟨⟨ws, cs, ht⟩, -⟩ := closeWindow_step s w.number reason
  have hwin : (s.closeWindow w.number reason).windows =
      (s.closing fun x => if x.number = w.number then x.shut reason s.readersEnrolled else x).windows :=
    closeWindow_windows hf ho reason
  have hctx : ∀ k : Slot, (s.closeWindow w.number reason).ctx k =
      (s.closing fun x => if x.number = w.number then x.shut reason s.readersEnrolled else x).ctx k := by
    intro k
    have hc : (s.closing fun x => if x.number = w.number then x.shut reason s.readersEnrolled else x).ctx k =
        (s.ctx k).handed [w.notice reason] := by
      refine (vmap_getElem _ s.contexts k.val k.isLt).trans ?_
      rw [filter_closes hd hw ho (g := fun x => x.shut reason s.readersEnrolled) rfl]
      simp [Window.asNotice, Window.shut, Window.notice, ctx]
    rw [hc]
    simp only [closeWindow, hf, ho, if_true]
    rw [ctx_foldl_handNotice s.enrolledSlots ((List.nodup_finRange 4).filter _) _ fun m hm => by
      have := (List.mem_filter.mp hm).2
      exact this]
    show (if k ∈ s.enrolledSlots then (s.ctx k).handed _ else s.ctx k) = _
    split
    · rfl
    · rename_i hk
      have : (s.ctx k).reader.enrolled = false := by
        simpa [enrolledSlots] using hk
      simp [Context.handed, this]
  have h1 := contexts_ext hctx
  rw [ht] at hwin h1
  rw [ht]
  simp only at hwin h1
  rw [hwin, h1]
  rfl

/-- Windows that leave the ring take nothing with them but cursors. -/
theorem without_step (s : State) (gone : Window → Bool) : WindowStep s (s.without gone) := by
  refine ⟨⟨_, _, rfl⟩, fun k => ?_⟩
  have h : (s.without gone).ctx k =
      if ∃ w ∈ s.held, gone w = true ∧ (s.ctx k).reader.cursor.StandsOn w.number then
        { s.ctx k with
          reader := { (s.ctx k).reader with cursor := { (s.ctx k).reader.cursor with condition := .gone } } }
      else s.ctx k := vmap_getElem _ s.contexts k.val k.isLt
  rw [h]
  split
  · exact ⟨_, _, rfl⟩
  · exact ⟨(s.ctx k).reader, (s.ctx k).attention.pending, rfl⟩

/-- A window that is lost takes with it what R117 and R135 say, and nothing else. -/
theorem losing_step (s : State) (w : Window) : WindowStep s (s.losing w) := by
  refine WindowStep.trans ⟨⟨s.windows, _, rfl⟩, fun k => ?_⟩ (without_step _ _)
  simp only [ctx, Fin.getElem_fin, Vector.getElem_ofFn]
  split
  · exact ⟨_, _, rfl⟩
  · exact ⟨s.contexts[k.val].reader, s.contexts[k.val].attention.pending, rfl⟩

/-- A station that leaves service changes its own record and what its windows bring. -/
theorem outOfService_step (s : State) (n : StationNo) (r : Station) :
    WindowStep (s.withRecordOf n r) (s.outOfService n r) := by
  unfold outOfService
  split
  · exact closing_step _ _
  · exact .refl _

theorem outOfService_station_same (s : State) (n : StationNo) (r : Station) : (s.outOfService n r).station n = r := by
  rw [(outOfService_step s n r).station]
  simp [withRecordOf, station]

theorem outOfService_station_of_ne {n k : StationNo} (h : k ≠ n) (s : State) (r : Station) :
    (s.outOfService n r).station k = s.station k := by
  rw [(outOfService_step s n r).station]
  simp only [withRecordOf, station, Fin.getElem_fin]
  exact Vector.getElem_set_ne _ _ fun e => h (Fin.ext e.symm)

end State

end Sys2Proof.Machine
end

