-- ==== Sys2Proof/Laws/Stations.lean ====
section
/-! SUPPORT. Stations that leave service: what the removal from expected sets does to the windows, and what the operations
over many stations leave in each record. -/

namespace Sys2Proof.Machine

namespace State

/-! ### Windows that stay OPEN -/

/-- A window that a close leaves OPEN is untouched by it (R114). -/
theorem mem_closeWindow_open {s : State} {n : Nat} {reason : CloseReason} {w : Window}
    (h : w ∈ (s.closeWindow n reason).held) (ho : w.isOpen = true) : w ∈ s.held := by
  cases hf : s.holdsOpen n
  · rwa [closeWindow_of_not_open hf] at h
  · obtain ⟨v, hv, hvo⟩ := holdsOpen_iff.mp hf
    rw [held_eq, closeWindow_windows hv hvo, ← held_eq, held_modWindow] at h
    obtain ⟨x, hx, rfl⟩ := List.mem_map.mp h
    split at ho
    · cases ho
    · rename_i hn
      rwa [if_neg hn]

theorem mem_completenessCheck_open {s : State} {n : Nat} {w : Window} (h : w ∈ (s.completenessCheck n).held)
    (ho : w.isOpen = true) : w ∈ s.held := by
  unfold completenessCheck at h
  split at h
  · split at h
    · exact mem_closeWindow_open h ho
    · exact h
  · exact h

/-- An OPEN window after the removal from window n: as it was under another number, without the station under n
(R105). -/
theorem mem_removeExpectedIn_open {s : State} {st : StationNo} {n : Nat} {w : Window}
    (hn : (s.held.map Window.number).Nodup) (h : w ∈ (s.removeExpectedIn st n).held) (ho : w.isOpen = true) :
    st ∉ w.expected ∨ (w ∈ s.held ∧ w.number ≠ n) := by
  unfold removeExpectedIn at h
  split at h
  · rename_i v hv
    obtain ⟨hvm, hvn⟩ := findWindow_some hv
    split at h
    · have h := mem_completenessCheck_open h ho
      rw [held_modWindow] at h
      obtain ⟨x, hx, rfl⟩ := List.mem_map.mp h
      split
      · left
        simp
      · rename_i hxn
        exact .inr ⟨hx, hxn⟩
    · rename_i hc
      by_cases hw : w.number = n
      · left
        have hfind := findWindow_of_mem hn h
        rw [hw, hv] at hfind
        cases hfind
        simpa using hc
      · exact .inr ⟨h, hw⟩
  · rename_i hv
    exact .inr ⟨h, findWindow_none.mp hv w h⟩

theorem numbers_closeWindow (s : State) (n : Nat) (reason : CloseReason) :
    (s.closeWindow n reason).held.map Window.number = s.held.map Window.number := by
  cases hf : s.holdsOpen n
  · rw [closeWindow_of_not_open hf]
  · obtain ⟨v, hv, hvo⟩ := holdsOpen_iff.mp hf
    rw [held_eq, closeWindow_windows hv hvo, ← held_eq]
    exact numbers_modWindow fun _ => rfl

theorem numbers_completenessCheck (s : State) (n : Nat) :
    (s.completenessCheck n).held.map Window.number = s.held.map Window.number := by
  unfold completenessCheck
  split
  · split
    · exact numbers_closeWindow ..
    · rfl
  · rfl

theorem numbers_removeExpectedIn (s : State) (st : StationNo) (n : Nat) :
    (s.removeExpectedIn st n).held.map Window.number = s.held.map Window.number := by
  unfold removeExpectedIn
  split
  · split
    · rw [numbers_completenessCheck]
      exact numbers_modWindow fun _ => rfl
    · rfl
  · rfl

/-- A station removed from the expected sets stands in none of an OPEN window (R105). -/
theorem removeExpected_expected {s : State} {st : StationNo} (hn : (s.held.map Window.number).Nodup) :
    ∀ w ∈ (s.removeExpected st).held, w.isOpen = true → st ∉ w.expected := by
  have key : ∀ (l : List Nat) (u : State), (u.held.map Window.number).Nodup →
      ∀ w ∈ (l.foldl (fun t n => t.removeExpectedIn st n) u).held, w.isOpen = true →
        st ∉ w.expected ∨ (w ∈ u.held ∧ w.number ∉ l) := by
    intro l
    induction l with
    | nil => exact fun u _ w hw _ => .inr ⟨hw, List.not_mem_nil⟩
    | cons n l ih =>
      intro u hu w hw ho
      rcases ih (u.removeExpectedIn st n) (by rwa [numbers_removeExpectedIn]) w hw ho with h | ⟨h, hl⟩
      · exact .inl h
      · rcases mem_removeExpectedIn_open hu h ho with h | ⟨h, hne⟩
        · exact .inl h
        · exact .inr ⟨h, by simp [hne, hl]⟩
  intro w hw ho
  rcases key s.openNumbers s hn w hw ho with h | ⟨h, hl⟩
  · exact h
  · exact absurd (mem_openNumbers.mpr ⟨w, h, ho, rfl⟩) hl

/-! ### Leaving service -/

/-- A station that leaves service: its record changed, and nothing else but what closing windows brings (R105). -/
theorem leaveService_step (s : State) (n : StationNo) (f : Station → Station) :
    WindowStep (s.modStation n f) (s.leaveService n f) := by
  unfold leaveService
  split
  · exact removeExpected_step _ n
  · exact .refl _

/-- The records after one station leaves service. -/
theorem station_leaveService (s : State) (n k : StationNo) (f : Station → Station) :
    (s.leaveService n f).station k = if k = n then f (s.station n) else s.station k := by
  rw [(leaveService_step s n f).station, modStation, station_setStation]

/-- A scan of one station leaves every other record, and this one SILENT if it timed out (R36). -/
theorem station_scanStation (s : State) (n k : StationNo) :
    (s.scanStation n).station k =
      if k = n ∧ (s.station n).isSilentAt s.timebase.us s.params.silenceTimeout = true then
        { s.station n with state := .silent }
      else s.station k := by
  unfold scanStation
  split
  · rename_i h
    rw [station_leaveService]
    simp [h]
  · rename_i h
    simp [h]

/-- A station's record when it is applied a pending configuration and a staged model (R32). -/
theorem station_stationBoundary (s : State) (k : StationNo) :
    s.stationBoundary.station k = (s.station k).atBoundary := station_modAllStations ..

end State

namespace Station

@[simp] theorem raiseHorizon_horizon (r : Station) (v : Nat) : (r.raiseHorizon v).horizon = some (max (r.horizon.getD 0) v) := by
  unfold raiseHorizon
  cases r.horizon <;> simp

/-- Without a staged model or without an active one a boundary applies no model (R32). -/
theorem applyStaged_of_none {r : Station} (h : r.staged = none ∨ r.active = none) : r.applyStaged = r := by
  unfold applyStaged
  split
  · rename_i hs ha
    simp_all
  · rfl

/-- The state of a station that comes into service (R27, R34). -/
theorem serviceState_eq (r : Station) :
    r.serviceState =
      if r.config.mode = .probed ∧ ∀ a ∈ r.active, a.estimated = false then .acquiring else .tracking := by
  unfold serviceState
  cases r.config.mode <;> simp
  cases r.active with
  | none => simp
  | some a => cases h : a.estimated <;> simp [h]

end Station

/-! ### Owner requests (R26) -/

namespace State

theorem ownerRequest_of_not_station {s : State} {m : Slot} (h : 127 < s.argNat m 0) (act : StationNo → State) :
    s.ownerRequest m act = s.completeBare m .badArg := by
  simp [ownerRequest, stationOf_eq_none.mpr h]

theorem ownerRequest_of_not_owner {s : State} {m : Slot} {n : StationNo} (h : s.argNat m 0 = n.val)
    (ho : s.owns m n = false) (act : StationNo → State) : s.ownerRequest m act = s.completeBare m .notOwner := by
  simp [ownerRequest, h, ho]

theorem ownerRequest_of_owner {s : State} {m : Slot} {n : StationNo} (h : s.argNat m 0 = n.val)
    (ho : s.owns m n = true) (act : StationNo → State) : s.ownerRequest m act = act n := by
  simp [ownerRequest, h, ho]

end State

end Sys2Proof.Machine
end

