-- ==== Sys2Proof/Laws/Intake.lean ====
section
/-! SUPPORT. The Intake Unit's shared operations: the head record leaving a queue, the slot served, and what placing
fragments may change. -/

namespace Sys2Proof.Machine.State

/-- What the leaving of the head record leaves of slot m's context (R80, R81). -/
theorem ctx_popQueue_same (s : State) (m : Slot) :
    (s.popQueue m).ctx m =
      if (s.ctx m).intake.queue.tail = [] ∧ (s.ctx m).intake.hold = true then
        { s.ctx m with
          intake := { (s.ctx m).intake with queue := (s.ctx m).intake.queue.tail, hold := false }
          attention := (s.ctx m).attention.raise .intakeOpen }
      else { s.ctx m with intake := { (s.ctx m).intake with queue := (s.ctx m).intake.queue.tail } } := by
  unfold popQueue clearHold
  dsimp only
  rw [ctx_modIntake_same]
  by_cases hq : (s.ctx m).intake.queue.tail = []
  · by_cases hh : (s.ctx m).intake.hold = true
    · simp [hq, hh, ctx_raise]
    · simp [hq, hh]
  · simp [hq]

/-- Every other context stands. -/
theorem ctx_popQueue_of_ne {m k : Slot} (h : k ≠ m) (s : State) : (s.popQueue m).ctx k = s.ctx k := by
  unfold popQueue clearHold
  dsimp only
  split
  · split <;> simp [ctx_raise, h, modIntake, ctx_modCtx_of_ne h]
  · simp [modIntake, ctx_modCtx_of_ne h]

/-- Of the whole state a leaving record changes the contexts alone. -/
theorem popQueue_eq (s : State) (m : Slot) : s.popQueue m = { s with contexts := (s.popQueue m).contexts } := by
  unfold popQueue clearHold
  dsimp only
  split
  · split <;> rfl
  · rfl

/-- A slot served is eligible (R83). -/
theorem eligible_of_servedSlot {s : State} {m : Slot} (h : s.servedSlot = some m) : s.eligible m = true :=
  List.find?_some h

theorem eligible_iff {s : State} {m : Slot} :
    s.eligible m = true ↔ (s.ctx m).intake.queue ≠ [] ∧ (s.ctx m).intake.stopped = false := by
  simp [eligible]

/-- With no slot eligible none is served (R83). -/
theorem servedSlot_eq_none {s : State} (h : ∀ k : Slot, s.eligible k = false) : s.servedSlot = none := by
  simp [servedSlot, h]

/-- Of the placement of one fragment nothing remains but the windows, the readers, the pending flags and the fragment's
station (R107, R110); one of the two numbers rises by one. -/
theorem placeOne_step (p : State × Nat × Nat) (wf : Nat × Fragment) :
    WindowStep { p.1 with stations := (placeOne p wf).1.stations } (placeOne p wf).1
      ∧ (placeOne p wf).2.1 + (placeOne p wf).2.2 = p.2.1 + p.2.2 + 1 := by
  unfold placeOne
  dsimp only
  split
  · have h := (modWindow_step p.1 wf.1 fun w =>
      w.enter wf.2 p.1.params.tolerance (p.1.samplesNeeded wf.2.station)).trans (completenessCheck_step _ wf.1)
    refine ⟨?_, by dsimp only; omega⟩
    have e : { p.1 with stations := p.1.stations } = p.1 := rfl
    rw [h.stations, e]
    exact h
  · exact ⟨.refl _, by dsimp only; omega⟩

/-- A reclaim for records of the pool leaves every station (R107). -/
theorem station_reclaimFor (s : State) (need fuel : Nat) (n : StationNo) :
    (s.reclaimFor need fuel).station n = s.station n := (reclaimFor_step need fuel s).station n

end Sys2Proof.Machine.State
end

