-- ==== Sys2Proof/Laws/Requests.lean ====
section
/-! SUPPORT. The request protocol (R158 to R160): what a code word write leaves around the action of the owning block. -/

namespace Sys2Proof.Machine.State

/-! ### Argument words are not changed by taking the request -/

@[simp] theorem request_noteCode (s : State) (m : Slot) (v : Word) :
    ((s.noteCode m v).ctx m).request =
      { (s.ctx m).request with
        number := (s.ctx m).request.number + 1, lastCode := BitVec.ofNat 8 v.toNat } := by
  simp [noteCode]

theorem ctx_noteCode_of_ne {m k : Slot} (h : k ≠ m) (s : State) (v : Word) : (s.noteCode m v).ctx k = s.ctx k := by
  simp [noteCode, modRequest, ctx_modCtx_of_ne h]

@[simp] theorem arg_noteCode (s : State) (m : Slot) (v : Word) (k : Fin 7) : (s.noteCode m v).arg m k = s.arg m k := by
  simp [arg]

@[simp] theorem argNat_noteCode (s : State) (m : Slot) (v : Word) (k : Fin 7) :
    (s.noteCode m v).argNat m k = s.argNat m k := by
  simp [argNat]

@[simp] theorem argInt_noteCode (s : State) (m : Slot) (v : Word) (k : Fin 7) :
    (s.noteCode m v).argInt m k = s.argInt m k := by
  simp [argInt]

@[simp] theorem argWide_noteCode (s : State) (m : Slot) (v : Word) (i j : Fin 7) :
    (s.noteCode m v).argWide m i j = s.argWide m i j := by
  simp [argWide]

/-- Everything of slot m's context but the request slot stands while a request is taken. -/
theorem ctx_noteCode_same (s : State) (m : Slot) (v : Word) :
    (s.noteCode m v).ctx m = { s.ctx m with request := ((s.noteCode m v).ctx m).request } := by
  simp [noteCode]

@[simp] theorem range_noteCode (s : State) (m k : Slot) (v : Word) :
    ((s.noteCode m v).ctx k).range = (s.ctx k).range := by
  by_cases h : k = m
  · subst h; rw [ctx_noteCode_same]
  · rw [ctx_noteCode_of_ne h]

@[simp] theorem reader_noteCode (s : State) (m k : Slot) (v : Word) :
    ((s.noteCode m v).ctx k).reader = (s.ctx k).reader := by
  by_cases h : k = m
  · subst h; rw [ctx_noteCode_same]
  · rw [ctx_noteCode_of_ne h]

@[simp] theorem intake_noteCode (s : State) (m k : Slot) (v : Word) :
    ((s.noteCode m v).ctx k).intake = (s.ctx k).intake := by
  by_cases h : k = m
  · subst h; rw [ctx_noteCode_same]
  · rw [ctx_noteCode_of_ne h]

@[simp] theorem owns_noteCode (s : State) (m k : Slot) (v : Word) (n : StationNo) :
    (s.noteCode m v).owns k n = s.owns k n := by
  simp [owns]

/-! ### The protocol -/

/-- A code word write in a state that takes it: the request noted, the owning block's action, the answer OK (R158). -/
theorem onRequest_of_ready {s : State} {m : Slot} (h : s.Ready m) (code : Word) (act : State → State) :
    s.onRequest m code act = (act (s.noteCode m code)).answer .ok none := by
  simp [onRequest, onBus, h.1, takeRequest, h.2]

/-- A code word write while the slot is IN FLIGHT is answered RETRY and does nothing else (R160). -/
theorem onRequest_of_inFlight {s : State} {m : Slot} (h : s.inReset = false) (hf : (s.ctx m).request.inFlight = true)
    (code : Word) (act : State → State) : s.onRequest m code act = s.answer .retry none := by
  simp [onRequest, onBus, h, takeRequest, hf]

/-- While the part is held in full reset a code word write is not acknowledged (R163). -/
theorem onRequest_of_inReset {s : State} {m : Slot} (h : s.inReset = true) (code : Word) (act : State → State) :
    s.onRequest m code act = s.answer .noAck none := by
  simp [onRequest, onBus, h]

/-- A request noted, completed by its owning block with nothing else changed, and answered. -/
theorem answer_complete_noteCode (s : State) (m : Slot) (v : Word) (st : Status) (vals : Values) :
    ((s.noteCode m v).complete m st vals).answer .ok none = s.answered m (BitVec.ofNat 8 v.toNat) st vals := by
  simp [answered, answer, complete, postResult, raise, modAttention, modRequest, noteCode, modCtx, setCtx, ctx,
    Attention.raise, Cause.mask, Cause.index]

/-- The same for a completion without values. -/
theorem answer_completeBare_noteCode (s : State) (m : Slot) (v : Word) (st : Status) :
    ((s.noteCode m v).completeBare m st).answer .ok none
      = s.answered m (BitVec.ofNat 8 v.toNat) st Values.zero :=
  answer_complete_noteCode s m v st Values.zero

/-- A completion by an event of the Timebase (R159). -/
theorem complete_eq_finished (s : State) (m : Slot) (st : Status) (vals : Values) :
    s.complete m st vals = s.finished m st vals := by
  simp [finished, complete, postResult, raise, modAttention, modRequest, modCtx, setCtx, ctx,
    Attention.raise, Cause.mask, Cause.index]

/-! ### What the owning blocks change commutes with noting the code -/

theorem setTimebase_noteCode (s : State) (m : Slot) (v : Word) (t : Timebase) :
    (s.noteCode m v).setTimebase t = (s.setTimebase t).noteCode m v := rfl

theorem modStation_noteCode (s : State) (m : Slot) (v : Word) (n : StationNo) (f : Station → Station) :
    (s.noteCode m v).modStation n f = (s.modStation n f).noteCode m v := rfl

/-- A change of a context that neither reads nor writes its request slot commutes with noting a code. -/
theorem modPart_noteCode (s : State) (m k : Slot) (v : Word) (f : Context → Context)
    (hf : ∀ c q, f { c with request := q } = { f c with request := q }) (hq : ∀ c, (f c).request = c.request) :
    (s.noteCode m v).modCtx k f = (s.modCtx k f).noteCode m v := by
  have h : ∀ j, ((s.noteCode m v).modCtx k f).ctx j = ((s.modCtx k f).noteCode m v).ctx j := by
    intro j
    by_cases hj : j = m <;> by_cases hk : j = k
    · subst hj; subst hk
      simp only [noteCode, modRequest, ctx_modCtx_same]
      rw [hf, hq]
    · subst hj
      simp only [noteCode, modRequest, ctx_modCtx_same, ctx_modCtx_of_ne hk]
    · subst hk
      simp only [noteCode, modRequest, ctx_modCtx_same, ctx_modCtx_of_ne hj]
    · simp only [noteCode, modRequest, ctx_modCtx_of_ne hj, ctx_modCtx_of_ne hk]
  exact congrArg (fun c => { s with contexts := c }) (contexts_ext h)

theorem modIntake_noteCode (s : State) (m k : Slot) (v : Word) (f : Intake → Intake) :
    (s.noteCode m v).modIntake k f = (s.modIntake k f).noteCode m v := modPart_noteCode s m k v _ (fun _ _ => rfl) fun _ => rfl

theorem modCapture_noteCode (s : State) (m k : Slot) (v : Word) (f : Capture → Capture) :
    (s.noteCode m v).modCapture k f = (s.modCapture k f).noteCode m v := modPart_noteCode s m k v _ (fun _ _ => rfl) fun _ => rfl

theorem modReader_noteCode (s : State) (m k : Slot) (v : Word) (f : Reader → Reader) :
    (s.noteCode m v).modReader k f = (s.modReader k f).noteCode m v := modPart_noteCode s m k v _ (fun _ _ => rfl) fun _ => rfl

theorem modAttention_noteCode (s : State) (m k : Slot) (v : Word) (f : Attention → Attention) :
    (s.noteCode m v).modAttention k f = (s.modAttention k f).noteCode m v :=
  modPart_noteCode s m k v _ (fun _ _ => rfl) fun _ => rfl

theorem setRangeEntry_noteCode (s : State) (m k : Slot) (v : Word) (r : Option Range) :
    (s.noteCode m v).setRangeEntry k r = (s.setRangeEntry k r).noteCode m v :=
  modPart_noteCode s m k v _ (fun _ _ => rfl) fun _ => rfl

theorem modAllCtx_noteCode_of_request (s : State) (m : Slot) (v : Word) (f : Context → Context)
    (hf : ∀ c q, f { c with request := q } = { f c with request := q }) (hq : ∀ c, (f c).request = c.request) :
    (s.noteCode m v).modAllCtx f = (s.modAllCtx f).noteCode m v := by
  have h : ∀ k, ((s.noteCode m v).modAllCtx f).ctx k = ((s.modAllCtx f).noteCode m v).ctx k := by
    intro k
    by_cases h : k = m
    · subst h
      simp only [noteCode, modRequest, ctx_modAllCtx, ctx_modCtx_same]
      rw [hf, hq]
    · simp only [ctx_noteCode_of_ne h, ctx_modAllCtx]
  exact congrArg (fun c => { s with contexts := c }) (contexts_ext h)

theorem raiseAll_noteCode (s : State) (m : Slot) (v : Word) (c : Cause) :
    (s.noteCode m v).raiseAll c = (s.raiseAll c).noteCode m v :=
  modAllCtx_noteCode_of_request s m v _ (fun _ _ => rfl) fun _ => rfl

theorem raiseAll_timebase_eq (s : State) : s.raiseAll .timebase = s.timebaseRaised := by
  simp [raiseAll, timebaseRaised, modAllCtx, Attention.raise, Cause.mask, Cause.index]

theorem timebaseRaised_noteCode (s : State) (m : Slot) (v : Word) :
    (s.noteCode m v).timebaseRaised = s.timebaseRaised.noteCode m v := by
  rw [← raiseAll_timebase_eq, raiseAll_noteCode, raiseAll_timebase_eq]

/-- A change of discipline state leaves the new Timebase and TIMEBASE pending at every slot (R14). -/
theorem withTimebase_of_ne {s : State} {t : Timebase} (h : t.discipline ≠ s.timebase.discipline) :
    s.withTimebase t = { s.timebaseRaised with timebase := t } := by
  rw [withTimebase_eq, if_neg h, raiseAll_timebase_eq]
  rfl

/-- While the discipline state stays the same the Timebase is replaced and nothing is raised (R14). -/
theorem withTimebase_of_eq {s : State} {t : Timebase} (h : t.discipline = s.timebase.discipline) :
    s.withTimebase t = { s with timebase := t } := by
  rw [withTimebase_eq, if_pos h]
  rfl

end Sys2Proof.Machine.State
end

