-- ==== Sys2Proof/Laws/Timebase.lean ====
section
/-! SUPPORT. The Timebase's shared operations: the window test, what measuring a pulse and changing the discipline leave,
and what each operation on the whole state may change. -/

namespace Sys2Proof.Machine

/-- The window test of R3 in units of fine time. -/
theorem inWindow_iff {p : Params} {e : Int} : inWindow p e = true ↔ e.natAbs ≤ 2 ^ 32 * p.lockWindow := by
  rw [inWindow, usUnits_eq]
  exact decide_eq_true_iff

theorem inWindow_eq_false {p : Params} {e : Int} : inWindow p e = false ↔ 2 ^ 32 * p.lockWindow < e.natAbs := by
  rw [← Bool.not_eq_true, inWindow_iff, Nat.not_le]

namespace Timebase

variable (t : Timebase) (p : Params) (e : Int) (f : SetTimeInFlight)

/-- The pulse error lies within half a second on either side (R3). -/
theorem pulseError_bounds : -(500000 * 2 ^ 32) ≤ t.pulseError ∧ t.pulseError < 500000 * 2 ^ 32 := by
  have hs : secondUnits = 4294967296000000 := rfl
  have h : (secondUnits / 2 + t.fine) % secondUnits < secondUnits := Nat.mod_lt _ (by rw [hs]; omega)
  unfold pulseError
  rw [hs] at h ⊢
  omega

/-! ### What a measurement leaves (R3) -/

@[simp] theorem measure_us : (t.measure p).us = t.us := rfl
@[simp] theorem measure_frac : (t.measure p).frac = t.frac := rfl
@[simp] theorem measure_freqPart : (t.measure p).freqPart = t.freqPart := rfl
@[simp] theorem measure_phasePart : (t.measure p).phasePart = t.phasePart := rfl
@[simp] theorem measure_discipline : (t.measure p).discipline = t.discipline := rfl
@[simp] theorem measure_badRun : (t.measure p).badRun = t.badRun := rfl
@[simp] theorem measure_goodRun : (t.measure p).goodRun = t.goodRun := rfl
@[simp] theorem measure_slewRemainder : (t.measure p).slewRemainder = t.slewRemainder := rfl
@[simp] theorem measure_inFlight : (t.measure p).inFlight = t.inFlight := rfl
@[simp] theorem measure_lastError : (t.measure p).lastError = t.pulseError := rfl
@[simp] theorem measure_deadline : (t.measure p).deadline = some (t.us + 1500000) := rfl

/-! ### What the changes of discipline state leave -/

@[simp] theorem disciplineUpdate_discipline : (t.disciplineUpdate p e).discipline = t.discipline := rfl
@[simp] theorem disciplineUpdate_us : (t.disciplineUpdate p e).us = t.us := rfl
@[simp] theorem disciplineUpdate_frac : (t.disciplineUpdate p e).frac = t.frac := rfl
@[simp] theorem enterHoldover_discipline : t.enterHoldover.discipline = .holdover := rfl
@[simp] theorem enterHoldover_phasePart : t.enterHoldover.phasePart = 0 := rfl
@[simp] theorem enterHoldover_us : t.enterHoldover.us = t.us := rfl
@[simp] theorem enterHoldover_frac : t.enterHoldover.frac = t.frac := rfl
@[simp] theorem enterHoldover_deadline : t.enterHoldover.deadline = t.deadline := rfl
@[simp] theorem setTime_discipline : (t.setTime f).discipline = .locked := rfl
@[simp] theorem setTime_us : (t.setTime f).us = million * f.second := rfl
@[simp] theorem setTime_inFlight : (t.setTime f).inFlight = none := rfl
@[simp] theorem disarm_discipline : t.disarm.discipline = .free := rfl
@[simp] theorem disarm_inFlight : t.disarm.inFlight = none := rfl
@[simp] theorem disarm_us : t.disarm.us = t.us := rfl

/-- F stays within the trim limit through an update (R8). -/
theorem disciplineUpdate_freqPart_bounds :
    -262144 ≤ (t.disciplineUpdate p e).freqPart ∧ (t.disciplineUpdate p e).freqPart ≤ 262144 :=
  clamp_bounds (n := 262144) (by decide) _

/-! ### Fine time -/

/-- An advance lands below the end of network time, and keeps the fraction below one µs (R1). -/
theorem advanceFine_bounds : t.advanceFine.us ≤ maxUs ∧ t.advanceFine.frac < usUnits := by
  unfold advanceFine
  dsimp only
  split
  · exact ⟨Nat.le_refl _, Nat.sub_lt (by rw [usUnits_eq]; decide) (by decide)⟩
  · rename_i h
    exact ⟨Nat.not_lt.mp h, Nat.mod_lt _ (by rw [usUnits_eq]; decide)⟩

/-- Fine time never decreases on an advance from within its range (R1). -/
theorem fine_le_advanceFine (hu : t.us ≤ maxUs) (hf : t.frac < usUnits) : t.fine ≤ t.advanceFine.fine := by
  unfold advanceFine
  dsimp only
  rw [usUnits_eq] at hf
  split
  · simp only [fine, usUnits_eq]
    omega
  · simp only [fine, usUnits_eq]
    have := Nat.div_add_mod (2 ^ 32 * t.us + t.frac + t.step) (2 ^ 32)
    omega

end Timebase

namespace State

/-! ### Events that find nothing to do -/

theorem takeBoundary_of_none {s : State} (h : s.timebase.boundaryDue = none) : s.takeBoundary = s := by
  simp [takeBoundary, h]

theorem takeExpiry_of_none {s : State} (h : s.timebase.expiryDue = none) : s.takeExpiry = s := by
  simp [takeExpiry, h]

theorem takeScan_of_not {s : State} (h : s.timebase.scanDue = false) : s.takeScan = s := by
  simp [takeScan, h]

theorem takeArmedExpiry_of_not {s : State}
    (h : s.timebase.discipline = .armed → ∀ f ∈ s.timebase.inFlight, s.timebase.us < f.armTime + 2000000) :
    s.takeArmedExpiry = s := by
  unfold takeArmedExpiry
  split
  · rename_i f hd hf
    rw [if_neg (Nat.not_le.mpr (h hd f hf))]
  · rfl

theorem takeMissingPulse_of_not {s : State}
    (h : s.timebase.discipline.valid = true → ∀ d ∈ s.timebase.deadline, s.timebase.us < d) : s.takeMissingPulse = s := by
  unfold takeMissingPulse
  split
  · rename_i d hd
    rw [if_neg]
    rintro ⟨hv, hu⟩
    exact Nat.not_lt.mpr hu (h hv d hd)
  · rfl

end State

end Sys2Proof.Machine
end

