-- ==== Sys2Proof/Laws/Words.lean ====
section
/-! SUPPORT. Words that commands read and return: the sets of a manifest, the checks of an intake record, the captures that
a record names. -/

namespace Sys2Proof.Machine

/-- Bit i of word j of a set stands for station 32j + i (Table 11-9). -/
theorem setWord_getLsbD (set : List StationNo) (j i : Nat) (hi : i < 32) :
    (setWord set j).getLsbD i = true ↔ ∃ n ∈ set, n.val = 32 * j + i := by
  have key : ∀ (l : List StationNo) (v : Word),
      (l.foldl (fun v n => if n.val / 32 = j then v ||| atBit 1 (n.val % 32) else v) v).getLsbD i = true ↔
        v.getLsbD i = true ∨ ∃ n ∈ l, n.val = 32 * j + i := by
    intro l
    induction l with
    | nil => simp
    | cons a l ih =>
      intro v
      rw [List.foldl_cons, ih]
      have hbit : ∀ k : Nat, (atBit 1 k).getLsbD i = decide (k = i) := by
        intro k
        simp only [atBit, BitVec.getLsbD_ofNat, Nat.one_shiftLeft, Nat.testBit_two_pow]
        simp [hi]
      by_cases ha : a.val / 32 = j
      · rw [if_pos ha, BitVec.getLsbD_or, hbit]
        have : (a.val % 32 = i) ↔ a.val = 32 * j + i := by omega
        simp only [Bool.or_eq_true, decide_eq_true_iff, this, List.mem_cons, exists_eq_or_imp, or_assoc]
      · rw [if_neg ha]
        have : a.val ≠ 32 * j + i := by omega
        simp [this]
  have := key set 0
  rw [setWord, this]
  simp

/-- A lookup gives the time of the oldest entry that carries the number; a ring carries each number once (R45). -/
theorem Capture.lookup_eq_some (c : Capture) (q t : Nat) :
    c.lookup q = some t ↔
      ∃ older newer : List CaptureEntry, c.ring = older ++ ⟨q, t⟩ :: newer ∧ ∀ e ∈ older, e.seq ≠ q := by
  simp only [Capture.lookup, Option.map_eq_some_iff, List.find?_eq_some_iff_append]
  constructor
  · rintro ⟨⟨a, b⟩, ⟨h1, as, bs, h2, h3⟩, rfl⟩
    simp at h1
    subst h1
    exact ⟨as, bs, h2, fun e he => by simpa using h3 e he⟩
  · rintro ⟨as, bs, h2, h3⟩
    exact ⟨⟨q, t⟩, ⟨by simp, as, bs, h2, fun e he => by simpa using h3 e he⟩, rfl⟩

/-- The checks of R84 on a record, with word k read as a number: word 7 fits its low half, and the half-words of the eight
words sum to 0 modulo 65,536. -/
theorem IntakeRecord.checkOk_iff (rec : IntakeRecord) :
    rec.checkOk = true ↔
      (rec[(7 : Fin 8)]).toNat < 65536
        ∧ ((List.finRange 8).map fun k => (rec[k]).toNat / 65536 + (rec[k]).toNat % 65536).sum % 65536 = 0 := by
  have hi : ∀ v : Word, field v 16 16 = v.toNat / 65536 := fun v => by
    have := v.isLt
    simp only [field, Nat.shiftRight_eq_div_pow]
    omega
  have lo : ∀ v : Word, field v 0 16 = v.toNat % 65536 := fun v => by simp [field]
  have split8 : (List.finRange 8).map (fun k => (rec[k]).toNat / 65536 + (rec[k]).toNat % 65536) =
      ((List.finRange 7).map fun k => (rec[k.castSucc]).toNat / 65536 + (rec[k.castSucc]).toNat % 65536)
        ++ [(rec[(7 : Fin 8)]).toNat / 65536 + (rec[(7 : Fin 8)]).toNat % 65536] := by
    rw [List.finRange_succ_last, List.map_append, List.map_map]
    rfl
  rw [split8, List.sum_append, List.sum_singleton]
  simp only [checkOk, halfWordSum, word, hi, lo, Bool.and_eq_true, beq_iff_eq]
  generalize (List.map (fun k : Fin 7 => (rec[k.castSucc]).toNat / 65536 + (rec[k.castSucc]).toNat % 65536) _).sum = total
  generalize (rec[(7 : Fin 8)]).toNat = check
  omega

/-- A record is of a kind when it passes the checks and its kind bits give that kind (R84). -/
theorem IntakeRecord.wellFormedKind_eq_some (rec : IntakeRecord) (k : RecordKind) :
    rec.wellFormedKind = some k ↔ rec.checkOk = true ∧ rec.kind = some k := by
  rw [wellFormedKind]
  split <;> simp_all

end Sys2Proof.Machine
end

