-- ==== Sys2Proof/WellFormed.lean ====
section
/-! DEFINITION. Which commands spell their own row of the opcode table. Every operand type already holds only the
values the spec gives it; what is left is that a write is given under the row of the word it writes, and that an address
parity error is one. The meanings do not rest on this: a write given under another row has the effect of the word it
writes (log 9), and an address phase that passes its check is no failure (log 22). -/

namespace Sys2Proof

/-- A command spells its own row: an ADDRESS_PARITY_ERROR fails the check of R151, a REGISTER_WRITE with good lane parity
names a word that has no row of its own, and an UNKNOWN_REQUEST_CODE names no request. -/
def Instr.wellFormed : Instr → Bool
  | .addressParityError address m direction => !Machine.addressParityOk address.word m direction address.parity
  | .registerWrite address _ value lanes =>
      !(Machine.lanesOk value lanes && Machine.ownRowOffsets.contains (address.toNat % 16384))
  | .unknownRequestCode _ value => !Machine.namesRequest value
  | .oscillatorCycle | .slewRemainderEnd | .refPulse _ | .armedExpiry | .missingPulseEvent | .boundaryEvent
  | .expiryEvent | .scanEvent | .capturePulse _ _ | .fullReset _ | .fullResetEnd _ _
  | .busErrorClear _ _ | .commit _ _ | .recordTaking | .noticePop _ | .overflowClear _ _ | .cursorRead _
  | .cursorPositionWrite _ _ | .flagsWordWrite _ _ | .enableMaskWrite _ _ | .pollRead _ | .setTime _ | .reacquire _
  | .readTime _ | .setRange _ | .enableStation _ | .disableStation _ | .configureStation _ | .clearCounters _
  | .intakeReset _ | .setThreshold _ | .enrol _ | .withdraw _ | .openCursor _ | .release _ | .start _ | .halt _
  | .setParameter _ | .contextReset _ _ | .requestSlotRetry _ _ => true

end Sys2Proof
end

