-- ==== Sys2Proof/Tests/Slice0.lean ====
section
/-! SUPPORT. Tests on small states: the WellFormed smoke tests and figures that the spec works out. Each figure's source is
in its comment; no expected value comes from the model. -/

set_option maxRecDepth 100000

namespace Sys2Proof.Tests

open Sys2Proof.Machine

/-! ### Small states -/

/-- What a command answers, when it is a next state. -/
def after (c : Instr) (s : State) : State :=
  match exec c s with
  | .next t => t
  | .fault _ => s
  | .refused _ => s

/-- The part after reset, with a Timebase in a discipline state at a network µs. -/
def at_ (d : Discipline) (us : Nat) : State :=
  { State.reset with timebase := { Timebase.reset with
      discipline := d, us := us, deadline := if d.valid then some (us + 1500000) else none } }

/-- Argument words of slot m. -/
def withArgs (s : State) (m : Slot) (a : Vector Word 7) : State :=
  s.modRequest m fun r => { r with args := a }

theorem withArgs_arg (s : State) (m : Slot) (a : Vector Word 7) (k : Fin 7) : (withArgs s m a).arg m k = a[k] := by
  simp [withArgs, State.arg]

theorem withArgs_ready {s : State} {m : Slot} (h : s.Ready m) (a : Vector Word 7) : (withArgs s m a).Ready m :=
  ⟨h.1, by simpa [withArgs] using h.2⟩

/-- One station record in place. -/
def withStation (s : State) (n : StationNo) (r : Station) : State := s.setStation n r

/-- Windows in the lowest slots of the ring. -/
def withWindows (s : State) (ws : List Window) : State :=
  { s with windows := Vector.ofFn fun i => ws[i.val]? }

/-- An intake record put at the head of slot m's queue. -/
def withRecord (s : State) (m : Slot) (rec : IntakeRecord) : State :=
  s.modIntake m fun i => { i with queue := rec :: i.queue }

/-! ### WellFormed -/

theorem test_wellFormed_register_write_of_an_own_row_word :
    (Instr.registerWrite (BitVec.ofNat 18 8199) 0 1 0xE).wellFormed = false := by decide

theorem test_wellFormed_register_write_of_a_staging_word :
    (Instr.registerWrite (BitVec.ofNat 18 8198) 0 1 0xE).wellFormed = true := by decide

theorem test_wellFormed_address_parity_error_that_passes :
    (Instr.addressParityError ⟨0, true⟩ 0 .read).wellFormed = false
      ∧ (Instr.addressParityError ⟨0, false⟩ 0 .read).wellFormed = true := by decide

theorem test_wellFormed_unknown_code_that_names_a_request :
    (Instr.unknownRequestCode 0 18).wellFormed = false ∧ (Instr.unknownRequestCode 0 1).wellFormed = false := by decide

theorem test_wellFormed_unknown_code :
    (Instr.unknownRequestCode 0 19).wellFormed = true ∧ (Instr.unknownRequestCode 0 0).wellFormed = true := by decide

/-! ### The Timebase -/

/-- 01 section 1.6.1: LOCKED, F = +1200, a pulse 3.5 µs past the whole second. -/
theorem test_refPulse_discipline_update :
    let t := (after (.refPulse .rising)
      { at_ .locked 3 with timebase := { (at_ .locked 3).timebase with freqPart := 1200, frac := 2 ^ 31 } }).timebase
    t.lastError = 15032385536 ∧ t.phasePart = -458 ∧ t.freqPart = 1172 := by decide

/-- 01 section 1.6.2: the first pulse in SLEWING, F = +1000, 2300 µs late. -/
theorem test_refPulse_slew :
    let t := (after (.refPulse .rising)
      { at_ .slewing 2300 with timebase := { (at_ .slewing 2300).timebase with freqPart := 1000 } }).timebase
    t.phasePart = -263144 ∧ t.slewRemainder = 2300 * 4294967296 ∧ t.discipline = .slewing := by decide

/-- 01 section 1.6.1: the hub term after an error of 3.5 µs is 4, in LOCKED (code 2). -/
theorem test_readTime_hub_term :
    (after (.readTime 1) { at_ .locked 7 with timebase := { (at_ .locked 7).timebase with lastError := 15032385536 } }
      |>.ctx 1).request.result.values = ⟨7, 0, 0x02000004⟩ := by decide

/-- 09 section 9.7.1, event 2: SET TIME with N = 3,900,000,000 is taken in FREE and stays PENDING. -/
theorem test_setTime_arms :
    let t := after (.setTime 0) (withArgs State.reset 0 #v[3900000000, 0, 0, 0, 0, 0, 0])
    t.timebase.discipline = .armed ∧ (t.ctx 0).request.result.status = .pending
      ∧ (t.ctx 0).request.inFlight = true := by decide

/-! ### Stations -/

/-- 02 section 2.7: station 17 stays TRACKING at the 505th multiple and goes SILENT at the 506th. -/
theorem test_scan_silence :
    let r : Station := { Station.reset with state := .tracking, lastArrival := 1000000000 }
    r.isSilentAt 1059061760 60 = false ∧ r.isSilentAt 1061158912 60 = true := by decide

/-- 02 section 2.8: the marking figure of station 42, and the wrap. -/
theorem test_marking :
    markSequence (some ⟨1000, []⟩) 1003 = (⟨1003, [1000]⟩, 2) ∧ markSequence (some ⟨1003, [1000]⟩) 1001 =
        (⟨1003, [1001, 1000]⟩, 0)
      ∧ markSequence (some ⟨1003, [1002, 1001, 1000]⟩) 1040 = (⟨1040, []⟩, 36)
      ∧ markSequence (some ⟨65530, []⟩) 4 = (⟨4, [65530]⟩, 9) := by decide

/-- 02 section 2.3: base 32 with size 64 is BAD_ARG; 64 with 32 is a range. -/
theorem test_setRange_alignment : askedRange 32 64 = none ∧ askedRange 64 32 = some (some ⟨64, 32⟩) := by decide

/-- 05 section 5.7.1: the classification of sequence numbers against last 1040 and seen-set {1010}. -/
theorem test_classification :
    let q : Option SequenceState := some ⟨1040, [1010]⟩
    classifySequence q 1040 = some .duplicate ∧ classifySequence q 1010 = some .duplicate
      ∧ classifySequence q 1020 = none ∧ classifySequence q 1005 = some .staleSeq ∧ classifySequence q 1041 = none
      ∧ classifySequence q 9000 = none ∧ classifySequence q 40000 = some .staleSeq := by decide

/-! ### Clock models and correction -/

/-- 03 section 3.3.1: the worked probe. -/
theorem test_measureProbe :
    measureProbe 2195000000 2195000859 2200000410 2200000450 none 100000 =
      .ok ⟨2200000410, 2200000450, -10000001, 819⟩ := by decide

/-- Station 33 of 03 section 3.5.1 before the probe of section 3.3.1. -/
def station33 : Station := { Station.reset with
  state := .tracking
  config := ⟨.probed, 5, 0, 0, 0⟩
  active := some ⟨-10003001, 10000, 2080000410, 870, 6, true⟩
  anchor := some ⟨2080000410, -10003001⟩
  history := [⟨2050000000, 0, 1040⟩, ⟨2080000410, -10003001, 870⟩, ⟨2100000000, 0, 912⟩, ⟨2150000000, 0, 887⟩] }

/-- 03 section 3.5.1: the drift computation, with a min drift span of 100 s and with the default of 300 s. -/
theorem test_drift_computation :
    let p : Probe := ⟨2200000410, 2200000450, -10000001, 819⟩
    let t := station33.processProbe p { Params.reset with minDriftSpan := 100 } .run
    t.staged = some ⟨-10000001, 10625, 2200000410, 819⟩ ∧ t.anchor = some ⟨2200000410, -10000001⟩
      ∧ t.horizon = some 2200000450 ∧ t.state = .tracking
      ∧ (station33.processProbe p Params.reset .run).staged = some ⟨-10000001, 10000, 2200000410, 819⟩ := by decide

/-- Station 58 of 04 section 4.8.1. -/
def station58 : Station := { Station.reset with
  state := .tracking
  config := ⟨.probed, 5, -2300, 0, 0⟩
  active := some ⟨-10000001, 12500, 7200000000, 840, 7, true⟩
  horizon := some 7200000450 }

/-- Table 11-9: stations 0, 33 and 127 in the expected set; Table 11-10: word 2 of a fragment with deviation -1. -/
theorem test_manifest_words :
    let f : Fragment :=
      ⟨5, 2, 0, 500, 9, 100, 10000007, 10999999, 840, -1, 7, true, false, false, true, false, false, true⟩
    let w : Window := ⟨1, some .flush, [0, 33, 127], [33], [f], [], true⟩
    (List.range 17).map (w.manifestWord Params.reset) =
      [1, 0x00010300, 0x00010003, 1, 2, 0, 0x80000000, 0, 2, 0, 0, 0x00099305, 0, 0x1C6401F4, 7, 0x07000348,
        0xFFFFFFFF] := by decide

/-- The BLOCK record of 11 section 11.2.1, its words written out. -/
def record58 : IntakeRecord := #v[0x153A01F4, 0x00C80000, 0x00000001, 0xB0BACF00, 0x00012000, 0, 0, 0x0000484E]

/-- 11 section 11.2.1: the header check, and the fields of the record. -/
theorem test_record_fields :
    record58.wellFormedKind = some .block ∧ record58.station = 58 ∧ record58.rateCode = 5 ∧ record58.sequence = 500
      ∧ record58.count = 200 ∧ record58.stamp = 7260000000 ∧ record58.tag = 0x00012000 := by decide

/-- 04 section 4.8.1: the corrected start, the network period and the sample times. -/
theorem test_correction_of_station58 :
    blockStamp station58 0 record58 = some 7260000000 ∧ correctedStart station58 record58 7260000000 0 = 7254998449
      ∧ networkPeriod station58 = 655368192 ∧ periodDeviation station58 = 8192
      ∧ sampleTime 7254998449 655368192 100 = 7255998462 ∧ sampleTime 7254998449 655368192 199 = 7256988474 := by decide

/-! ### Intake, readers, notices and the bus -/

/-- 05 section 5.4.1, taking 1: the pointer names slot 2, which is empty; slot 3 is served. -/
theorem test_roundRobin :
    (withRecord { State.reset with rrPointer := 2 } 3 record58).servedSlot = some 3
      ∧ (withRecord (withRecord { State.reset with rrPointer := 2 } 3 record58) 0 record58).servedSlot = some 3 := by decide

/-- 08 section 8.7, events 5, 6 and 9: what a POLL read reports and clears, with INTAKE OPEN masked. -/
theorem test_poll :
    let four : Attention := ⟨0x3C#6, 0x2F#6⟩
    four.reported = some .timebase ∧ four.polled.pending = 0x38#6
      ∧ four.polled.reported = some .closed ∧ four.polled.polled = four.polled
      ∧ (Attention.mk 0x30#6 0x2F#6).polled.pending = 0x10#6 := by decide

/-- 09 section 9.5.1, event 1: slot 2 writes its staging word 4 with lane 1 parity wrong, base select 3. -/
theorem test_busError_first_failure :
    let t := after (.registerWrite (BitVec.ofNat 18 57348) 2 0 0xD) { State.reset with straps := ⟨3, .rising, .rising⟩ }
    t.bus.response = .dataErr ∧ t.busError = some ⟨.data, BitVec.ofNat 18 57348, 2, .write, 1⟩ := by decide

/-- 09 section 9.5.1, event 2: word address 49,300, five ones, slot 0, READ, so that parity bit 1 is the wrong one. -/
theorem test_busError_second_failure :
    let t := after (.addressParityError ⟨BitVec.ofNat 18 49300, true⟩ 0 .read) { State.reset with
      straps := ⟨3, .rising, .rising⟩, busError := some ⟨.data, BitVec.ofNat 18 57348, 2, .write, 1⟩ }
    t.bus = ⟨.noAck, none⟩ ∧ t.busError = some ⟨.data, BitVec.ofNat 18 57348, 2, .write, 2⟩ := by decide

/-- 09 section 9.3: WRITE by slot 3 to word address 70,000, six ones, needs parity bit 0; and the lane parity of a word. -/
theorem test_parity_of_both_phases :
    addressParityOk (BitVec.ofNat 18 70000) 3 .write false = true
      ∧ addressParityOk (BitVec.ofNat 18 70000) 3 .write true = false
      ∧ (BusAnswer.mk .ok (some 0x01030007)).lanes = some 0x6#4 ∧ (BusAnswer.mk .ok none).lanes = none := by decide

/-- 09 section 9.5.1, event 6: an address with bad parity outside the window leaves the record EMPTY. -/
theorem test_busError_outside_the_window :
    let t := after (.addressParityError ⟨BitVec.ofNat 18 70000, false⟩ 3 .read) { State.reset with straps := ⟨3, .rising, .rising⟩ }
    t.bus.response = .noAck ∧ t.busError = none := by decide

/-! ### Witnesses: for each statement with hypotheses, states and operands that meet them, each clause at a boundary of
its range -/

/-- A SET TIME of slot 2 in flight, ARMED since network µs 100. -/
def armed (us : Nat) : State := { at_ .armed us with
  timebase := { (at_ .armed us).timebase with inFlight := some ⟨2, 68719476735, 100⟩ }
  contexts := State.reset.contexts.set 2 { Context.reset with request := { RequestSlot.reset with inFlight := true } } }

/-- A Timebase with some fields changed. -/
def withTime (s : State) (f : Timebase → Timebase) : State := s.setTimebase (f s.timebase)

/-- An OPEN window that expects station 5. -/
def openWin (n : Nat) : Window := ⟨n, none, [5], [], [], [], false⟩

/-- A CLOSED window that owes some slots. -/
def closedWin (n : Nat) (owed : List Slot) : Window := ⟨n, some .flush, [5], [], [], owed, true⟩

/-- Slot 0 owns all stations. -/
def owning (s : State) : State := s.setRangeEntry 0 (some ⟨0, 128⟩)

theorem witness_StepRunsTheFrontCommand : (at_ .free 0).pending = [] := by decide

/-- Sums of 2^88 - 1 and 2^88, and a trim at its limit. -/
theorem witness_OscillatorCycleAddsTheStep :
    let last := withTime (at_ .locked (2 ^ 56 - 1)) fun t => { t with frac := 2 ^ 32 - 1 - 524288000 }
    let past := withTime last fun t => { t with frac := t.frac + 1 }
    let slew := withTime (at_ .slewing 0) fun t => { t with phasePart := -262145, slewRemainder := 262145 }
    (last.inReset = false ∧ last.NothingDue ∧ 2 ^ 32 * last.timebase.us + last.timebase.frac + 524288000 = 2 ^ 88 - 1)
      ∧ (past.inReset = false ∧ past.NothingDue
          ∧ 2 ^ 32 * past.timebase.us + past.timebase.frac + 524288000 = 2 ^ 88)
      ∧ slew.inReset = false ∧ slew.NothingDue := by decide

/-- A cycle that stays within its µs, and one that reaches the end of window 0, the expiry time of window 0 and a whole
multiple of 2^17, with L = 1, H = 0 and k = 16, at network µs 8,192,000,000. -/
theorem witness_CycleRaisesTheEventsOfTheMicrosecond :
    let s := withTime { at_ .locked 8191999999 with
      params := { Params.reset with windowLength := 1, holdOpen := 0, scanBit := 16 } } fun t => { t with frac := 2 ^ 32 - 1 }
    let u := at_ .locked 0
    (s.inReset = false ∧ s.NothingDue ∧ s.params.Good ∧ (after .oscillatorCycle s).timebase.us = 8192000000)
      ∧ (u.inReset = false ∧ u.NothingDue ∧ u.params.Good ∧ (after .oscillatorCycle u).timebase.us = 0)
      ∧ (∃ t, exec .oscillatorCycle s = .next t) ∧ ∃ t, exec .oscillatorCycle u = .next t :=
  ⟨by decide, by decide, ⟨_, rfl⟩, ⟨_, rfl⟩⟩

theorem witness_CycleTakesWaitingEventsFirst :
    (withTime (at_ .locked 20000000) fun t => { t with boundaryDue := some 2 }).inReset = false := by decide

theorem witness_EventsThatAreNotThereDoNothing :
    (at_ .locked 0).inReset = false ∧ (at_ .locked 0).NothingDue ∧ Edge.falling ≠ (at_ .locked 0).straps.refEdge
      ∧ (at_ .free 0).timebase.discipline = .free ∧ Instr.scanEvent ∈ timedEvents := by decide

/-- Errors of exactly the lock window of 50 µs, and one unit more. -/
theorem witness_LockedPulseSteersOrCounts :
    let at50 := at_ .locked 50
    let past := withTime (at_ .locked 50) fun t => { t with frac := 1, badRun := 1 }
    let third := withTime past fun t => { t with badRun := 2 }
    (at50.inReset = false ∧ at50.timebase.discipline = .locked
        ∧ at50.timebase.pulseError.natAbs = 2 ^ 32 * at50.params.lockWindow)
      ∧ (past.inReset = false ∧ past.timebase.discipline = .locked
        ∧ past.timebase.pulseError.natAbs = 2 ^ 32 * past.params.lockWindow + 1 ∧ past.timebase.badRun < 2)
      ∧ third.inReset = false ∧ third.timebase.discipline = .locked
      ∧ 2 ^ 32 * third.params.lockWindow < third.timebase.pulseError.natAbs ∧ 2 ≤ third.timebase.badRun := by decide

theorem witness_HoldoverPulseCountsOrRelocks :
    let past := withTime (at_ .holdover 50) fun t => { t with frac := 1 }
    let two := withTime (at_ .holdover 50) fun t => { t with goodRun := 2 }
    let three := withTime (at_ .holdover 50) fun t => { t with goodRun := 3 }
    (past.inReset = false ∧ past.timebase.discipline = .holdover
        ∧ 2 ^ 32 * past.params.lockWindow < past.timebase.pulseError.natAbs)
      ∧ (two.inReset = false ∧ two.timebase.discipline = .holdover
        ∧ two.timebase.pulseError.natAbs ≤ 2 ^ 32 * two.params.lockWindow ∧ two.timebase.goodRun < 3)
      ∧ three.inReset = false ∧ three.timebase.discipline = .holdover
      ∧ three.timebase.pulseError.natAbs ≤ 2 ^ 32 * three.params.lockWindow ∧ 3 ≤ three.timebase.goodRun := by decide

theorem witness_SlewingPulseAndTheEndOfASlew :
    let near := at_ .slewing 50
    let far := withTime (at_ .slewing 50) fun t => { t with frac := 1 }
    let done := withTime (at_ .slewing 50) fun t => { t with phasePart := -10, slewRemainder := 9 }
    (near.inReset = false ∧ near.timebase.discipline = .slewing
        ∧ near.timebase.pulseError.natAbs ≤ 2 ^ 32 * near.params.lockWindow ∧ near.timebase.slewRemainder = 0)
      ∧ (far.inReset = false ∧ far.timebase.discipline = .slewing
        ∧ 2 ^ 32 * far.params.lockWindow < far.timebase.pulseError.natAbs)
      ∧ done.inReset = false ∧ done.timebase.discipline = .slewing
      ∧ done.timebase.slewRemainder < done.timebase.phasePart.natAbs := by decide

theorem witness_ArmedPulseSetsTheTime :
    (armed 100).inReset = false ∧ (armed 100).timebase.discipline = .armed
      ∧ (armed 100).timebase.inFlight = some ⟨2, 68719476735, 100⟩ := by decide

theorem witness_ArmedExpiryAndMissingPulse :
    ((armed 2000100).inReset = false ∧ (armed 2000100).timebase.discipline = .armed
        ∧ (armed 2000100).timebase.inFlight = some ⟨2, 68719476735, 100⟩ ∧ 100 + 2000000 ≤ (armed 2000100).timebase.us)
      ∧ ∀ d ∈ [Discipline.locked, .slewing, .holdover],
        let s := withTime (at_ d 7) fun t => { t with deadline := some 7 }
        s.inReset = false ∧ s.timebase.deadline = some 7 ∧ 7 ≤ s.timebase.us ∧ s.timebase.discipline = d := by decide

/-- A change by a missing pulse, and a command that changes no discipline state. -/
theorem witness_TimebaseCauseMarksEveryChange :
    let s := withTime (at_ .locked 7) fun t => { t with deadline := some 7 }
    s.TimingGood ∧ isFullReset .missingPulseEvent = false
      ∧ (after .missingPulseEvent s).timebase.discipline ≠ s.timebase.discipline
      ∧ (after (.readTime 0) s).timebase.discipline = s.timebase.discipline
      ∧ (∃ t, exec .missingPulseEvent s = .next t) ∧ ∃ t, exec (.readTime 0) s = .next t :=
  ⟨by decide, by decide, by decide, by decide, ⟨_, rfl⟩, ⟨_, rfl⟩⟩

/-- A good state in LOCKED with an oscillator cycle waiting. -/
def running : State := { at_ .locked 7 with pending := [.oscillatorCycle] }

theorem witness_ValidTimeNeverDecreases :
    running.TimingGood ∧ running.timebase.discipline.valid = true ∧ (∀ c ∈ running.pending.head?, isFullReset c = false)
      ∧ ∃ t, step running = .next t :=
  ⟨by decide, by decide, by decide, ⟨_, rfl⟩⟩

theorem witness_TimingStaysGood : running.TimingGood ∧ ∃ t, step running = .next t := ⟨by decide, ⟨_, rfl⟩⟩

/-- N of 68,719,476,735 (0x0000000F, 0xFFFFFFFF) and one more. -/
theorem witness_SetTimeArmsOrCompletes :
    let most := withArgs (at_ .free 0) 0 #v[0xFFFFFFFF, 0x0000000F, 0, 0, 0, 0, 0]
    let more := withArgs (at_ .free 0) 0 #v[0, 0x00000010, 0, 0, 0, 0, 0]
    ((armed 0).Ready 0 ∧ (armed 0).timebase.discipline = .armed)
      ∧ (∀ d ∈ [Discipline.locked, .holdover, .slewing], (at_ d 0).Ready 0 ∧ (at_ d 0).timebase.discipline = d)
      ∧ (most.Ready 0 ∧ most.timebase.discipline = .free
        ∧ (most.arg 0 0).toNat + 2 ^ 32 * (most.arg 0 1).toNat = 68719476735)
      ∧ more.Ready 0 ∧ more.timebase.discipline = .free
      ∧ (more.arg 0 0).toNat + 2 ^ 32 * (more.arg 0 1).toNat = 68719476736 := by decide

theorem witness_ReacquireLeavesHoldoverAlone :
    ((at_ .holdover 0).Ready 3 ∧ (at_ .holdover 0).timebase.discipline = .holdover)
      ∧ (at_ .free 0).Ready 3 ∧ (at_ .free 0).timebase.discipline ≠ .holdover := by decide

theorem witness_ReadTimeReportsOneMoment : (at_ .holdover 5000000).Ready 3 := by decide

/-- Slot 1 owns stations 64 to 95 of which 90 is TRACKING; slot 0 owns 0 to 63. The arguments are slot 1's. -/
def ranged (base size : Word) : State :=
  withArgs (withStation ((State.reset.setRangeEntry 0 (some ⟨0, 64⟩)).setRangeEntry 1 (some ⟨64, 32⟩)) 90
    { Station.reset with state := .tracking }) 1 #v[base, size, 0, 0, 0, 0, 0]

theorem witness_SetRangeChecksInOrder_table : (ranged 0 0).RangesGood := by
  refine ⟨by decide, by decide, fun n h => ⟨1, ?_⟩⟩
  have h' : n = 90 := by
    by_contra hn
    rw [show (ranged 0 0).station n = State.reset.station n from
      State.station_setStation_of_ne hn ((State.reset.setRangeEntry 0 (some ⟨0, 64⟩)).setRangeEntry 1 (some ⟨64, 32⟩))
        { Station.reset with state := .tracking }] at h
    simp [State.station, State.reset, State.fullResetValues, Station.reset] at h
  subst h'
  decide

/-- 02 section 2.3's figure gives the first three cases; 64 with 64 holds station 90, as the figure says, and an invalid
entry with station 90 DISABLED. -/
theorem witness_SetRangeChecksInOrder :
    ((ranged 32 64).Ready 1 ∧ ((ranged 32 64).arg 1 0).toNat % ((ranged 32 64).arg 1 1).toNat ≠ 0)
      ∧ (((ranged 0 128).arg 1 0).toNat + ((ranged 0 128).arg 1 1).toNat = 128 ∧ (ranged 0 128).owns 0 63 = true)
      ∧ ((ranged 64 16).owns 1 90 = true ∧ ((ranged 64 16).station 90).state ≠ .disabled ∧ ¬90 < 64 + 16)
      ∧ ((ranged 64 64).owns 1 90 = true ∧ (90 : Nat) < 64 + 64 ∧ ∀ n : Fin 64, (ranged 64 64).owns 0 (64 + n.castLE (by decide)) = false)
      ∧ (∀ n : Fin 128, State.reset.owns 1 n = false) ∧ State.reset.Ready 1 ∧ (State.reset.arg 1 0).toNat = 0
      ∧ (State.reset.arg 1 1).toNat = 0 := by decide

theorem witness_OwnerRequestsCheckTheOwner :
    let s := withArgs State.reset 1 #v[128, 0, 0, 0, 0, 0, 0]
    let u := withArgs State.reset 1 #v[127, 0, 0, 0, 0, 0, 0]
    (s.Ready 1 ∧ 127 < (s.arg 1 0).toNat) ∧ u.Ready 1 ∧ (u.arg 1 0).toNat = (127 : StationNo).val
      ∧ u.owns 1 127 = false := by decide

/-- Slot 0 owns every station; argument word 1 names station 127, in a state of service. -/
def owner127 (st : StationState) (a : Vector Word 7) : State :=
  withArgs (withStation (owning State.reset) 127 { Station.reset with state := st }) 0 a

theorem witness_EnableStationAndClearCounters :
    ∀ st ∈ [StationState.disabled, .silent],
      let s := owner127 st #v[127, 0, 0, 0, 0, 0, 0]
      s.Ready 0 ∧ (s.arg 0 0).toNat = (127 : StationNo).val ∧ s.owns 0 127 = true ∧ (s.station 127).state = st := by decide

/-- DISABLE STATION of station 127 in each kind of state; and a scan at a last arrival of exactly the silence timeout before,
and one µs less. -/
theorem witness_StationsOutOfServiceAreExpectedNoMore :
    (∀ st ∈ [StationState.disabled, .silent, .tracking],
      let s := { withWindows (owner127 st #v[127, 0, 0, 0, 0, 0, 0]) [openWin 3] with part := .run }
      s.Ready 0 ∧ s.RingGood ∧ (s.arg 0 0).toNat = (127 : StationNo).val ∧ s.owns 0 127 = true
        ∧ (s.station 127).state = st)
      ∧ let s := withStation (withStation (withTime (at_ .locked 62914560) fun t => { t with scanDue := true }) 5
          { Station.reset with state := .tracking, lastArrival := 2914560 }) 6
          { Station.reset with state := .tracking, lastArrival := 2914561 }
        s.inReset = false ∧ s.RingGood ∧ s.timebase.scanDue = true ∧ (s.station 5).state = .tracking
          ∧ (s.station 5).lastArrival + 1000000 * s.params.silenceTimeout = s.timebase.us
          ∧ (s.station 6).lastArrival + 1000000 * s.params.silenceTimeout = s.timebase.us + 1 := by decide

/-- Values at the ends of their ranges, and one above; DISABLED and TRACKING stations. -/
theorem witness_ConfigureStationStagesOrApplies :
    let least : Vector Word 7 := #v[127, 0, 0, 0xFFF85EE0, 0, 0, 0]
    let most : Vector Word 7 := #v[127, 2, 9, 500000, 10000000, 16777215, 0]
    let past : Vector Word 7 := #v[127, 2, 9, 500001, 10000000, 16777215, 0]
    let ok (s : State) : Prop := s.Ready 0 ∧ (s.arg 0 0).toNat = (127 : StationNo).val ∧ s.owns 0 127 = true
    ok (owner127 .tracking past) ∧ 500000 < ((owner127 .tracking past).arg 0 3).toInt
      ∧ ok { owner127 .tracking most with part := .run } ∧ ((owner127 .tracking most).arg 0 3).toInt = 500000
      ∧ ((owner127 .tracking most).arg 0 1).toNat = Mode.arrival.code
      ∧ ok (owner127 .disabled least) ∧ ((owner127 .disabled least).arg 0 3).toInt = -500000
      ∧ ((owner127 .disabled least).arg 0 1).toNat = Mode.satellite.code
      ∧ ((owner127 .disabled least).station 127).config.mode = .satellite
      ∧ ((owner127 .disabled most).station 127).config.mode ≠ .arrival := by decide

/-- A boundary in SETUP, with a station that has a staged and an active model and one that has none; and a station with a
pending configuration of its own mode and of another. -/
theorem witness_BoundaryAppliesEveryStation :
    let asked (mode : Mode) : Station := { station33 with pendingConfig := some ⟨mode, 6, 0, 0, 0⟩, staged := some ⟨1, 2, 3, 4⟩ }
    let s := withStation (withTime (at_ .locked 10000000) fun t => { t with boundaryDue := some 1 }) 33
      { station33 with staged := some ⟨1, 2, 3, 4⟩ }
    s.inReset = false ∧ s.timebase.boundaryDue = some 1 ∧ s.part = .setup
      ∧ (s.station 33).applyPending.staged = some ⟨1, 2, 3, 4⟩ ∧ (s.station 33).applyPending.active ≠ none
      ∧ (s.station 0).applyPending.staged = none
      ∧ station33.pendingConfig = none ∧ station33.staged = none ∧ station33.config.mode = .probed
      ∧ (asked .probed).pendingConfig = some ⟨.probed, 6, 0, 0, 0⟩ ∧ (asked .arrival).pendingConfig = some ⟨.arrival, 6, 0, 0, 0⟩
      ∧ (asked .probed).staged = some ⟨1, 2, 3, 4⟩ ∧ (asked .probed).active ≠ none := by decide

/-- Distances 1, 32 and 32,768, across the wrap. -/
theorem witness_MarkingKeepsTheSequenceWindow :
    (⟨0, [65504]⟩ : SequenceState).Good
      ∧ (((0 : Int) - (65535 : Nat)) % 65536).toNat = 1 ∧ (((0 : Int) - (65504 : Nat)) % 65536).toNat = 32
      ∧ (((0 : Int) - (32768 : Nat)) % 65536).toNat = 32768 := by decide

theorem witness_RangesStayGood : (ranged 0 0).RangesGood ∧ ∃ t, step (ranged 0 0) = .next t :=
  ⟨witness_SetRangeChecksInOrder_table, ⟨_, rfl⟩⟩

/-- The record that every station but one has in the states of these tests. -/
theorem reset_station_good : Station.reset.Good := by
  refine ⟨by decide, by decide, by decide, by decide, by decide, by decide, by decide, by decide, by decide⟩

theorem reset_station (n : StationNo) : State.reset.station n = Station.reset := by
  simp [State.station, State.reset, State.fullResetValues]

theorem witness_StationsStayGood : running.TimingGood ∧ running.StationsGood ∧ ∃ t, step running = .next t :=
  ⟨by decide, fun n => by
    rw [show running.station n = Station.reset from reset_station n]
    exact reset_station_good, ⟨_, rfl⟩⟩

theorem witness_CapturePulseMakesAnEntry :
    (∀ d ∈ [Discipline.free, .armed], (at_ d 0).inReset = false ∧ (at_ d 0).timebase.discipline = d)
      ∧ (∀ d ∈ [Discipline.locked, .holdover, .slewing], (at_ d 0).inReset = false ∧ (at_ d 0).timebase.discipline = d)
      ∧ Edge.falling ≠ State.reset.straps.captureEdge := by
  decide

/-- A stamp equally near from both sides, and the greatest. -/
theorem witness_ExtendedStampIsNearest :
    (0 < 2 ^ 40 ∧ (extendStamp 0 (2 ^ 39) - 2 ^ 39).natAbs = ((0 : Int) + 0 * 2 ^ 40 - 2 ^ 39).natAbs)
      ∧ 2 ^ 40 - 1 < 2 ^ 40 := by decide

theorem witness_SelectedEntryIsTheNewestOfLeastDelay : station33.history ≠ [] := by decide

/-- Station 33 with an offset 2001 half-µs from the prediction, and a station without a model. -/
theorem witness_ClockStepAndFirstModel :
    (station33.active = some ⟨-10003001, 10000, 2080000410, 870, 6, true⟩
        ∧ 2 * Params.reset.stepLimit + 1 =
          ((-10000601 + 2001 : Int) - (-10003001 + 2 * roundDiv (10000 * ((2200000410 : Nat) - (2080000410 : Nat))) 1000000000)).natAbs)
      ∧ Station.reset.active = none ∧ Station.reset.history = [] := by decide

/-- Station 33 with the worked probe: span 120 s against 100 s and 300 s; and a probe that is not selected. -/
theorem witness_NewReferenceStagesAModel :
    let p : Probe := ⟨2200000410, 2200000450, -10000001, 819⟩
    let q : Probe := { p with delay := 871 }
    (station33.active = some ⟨-10003001, 10000, 2080000410, 870, 6, true⟩
        ∧ station33.anchor = some ⟨2080000410, -10003001⟩
        ∧ ((-10000001 : Int) - (-10003001 + 2 * roundDiv (10000 * ((2200000410 : Nat) - (2080000410 : Nat))) 1000000000)).natAbs
          ≤ 2 * Params.reset.stepLimit
        ∧ selectEntry (station33.history ++ [⟨p.t2, p.offset, p.delay⟩]) = some ⟨p.t2, p.offset, p.delay⟩
        ∧ selectEntry (station33.history ++ [⟨q.t2, q.offset, q.delay⟩]) = some ⟨2080000410, -10003001, 870⟩)
      ∧ station33.history.length < 8 ∧ (2200000410 : Int) - 2080000410 = 1000000 * 120 := by decide

/-- A block of two samples of a SATELLITE station, the first in window 0 and the second in window 1, at rate code 0. -/
def block5 : IntakeRecord := #v[0x10050001, 0x00020000, 0, 9500000, 7, 0, 0, 0xFA01]

/-- A probe of station 5 by captures 0 and 1. -/
def probe5 : IntakeRecord := #v[0x20050001, 0, 2000000, 2000040, 9, 0, 0, 0xD68D]

/-- Station 5 TRACKING, SATELLITE, rate code 0, owned by slot 0. -/
def sat5 (us : Nat) : State := { withStation (owning (at_ .locked us)) 5
  { Station.reset with state := .tracking, config := { StationConfig.reset with rateCode := 0 } } with part := .run }

theorem witness_FragmentsPartitionTheBlock :
    0 < (sat5 9500000).params.windowLength
      ∧ (∀ a ∈ ((sat5 9500000).station 5).active, -200000 ≤ a.drift ∧ a.drift ≤ 200000)
      ∧ (∃ c, correct (sat5 9500000) 0 5 block5 0 = .ok c)
      ∧ ((correct (sat5 9500000) 0 5 block5 0).toOption.map fun c => c.fragments.map Prod.fst) = some [0, 1] :=
  ⟨by decide, by decide, ⟨_, rfl⟩, by decide⟩

/-- Station 5 with block5 corrected, at a network µs whose stamp lies out of range, and with samples in 9 windows of 1 s; and
the PROBED station 58. Halves on either side of 0, and a value below a half. -/
theorem witness_BlocksAreCorrectedByMode :
    let spread : IntakeRecord := #v[0x10050001, 0x00090000, 0, 9500000, 7, 0, 0, 0]
    let short : State := { sat5 9500000 with params := { Params.reset with windowLength := 1 } }
    (0 < (sat5 9500000).params.windowLength ∧ 0 < block5.count ∧ ((sat5 9500000).station 5).active = none
        ∧ ((sat5 9500000).station 5).config.mode = .satellite)
      ∧ extendStamp (2 ^ 40 - 1) 0 < 0
      ∧ (0 < short.params.windowLength ∧ spread.count = 9 ∧ (short.station 5).active = none
        ∧ ((List.range 9).map fun i => (9500000 + i * 1000000) / 1000000).dedup.length = 9)
      ∧ station58.config.mode = .probed ∧ station58.active = some ⟨-10000001, 12500, 7200000000, 840, 7, true⟩
      ∧ (roundDiv 5 2 = 3 ∧ roundDiv (-5) 2 = -3 ∧ roundDiv 4 10 = 0) := by decide

/-- Queues of 15 and 16 records. -/
theorem witness_CommitJoinsTheQueue :
    let q (k : Nat) := State.reset.modIntake 1 fun i => { i with queue := List.replicate k record58 }
    ((q 15).inReset = false ∧ ((q 15).ctx 1).intake.queue.length < 16)
      ∧ (q 16).inReset = false ∧ 16 ≤ ((q 16).ctx 1).intake.queue.length := by decide

theorem witness_RoundRobinServesTheNextEligible :
    let none_ := State.reset
    let s := withRecord { State.reset with rrPointer := 2 } 1 record58
    (none_.inReset = false ∧ ∀ k : Slot, ¬((none_.ctx k).intake.queue ≠ [] ∧ (none_.ctx k).intake.stopped = false))
      ∧ s.inReset = false ∧ (s.ctx (s.rrPointer + 3)).intake.queue ≠ [] ∧ (s.ctx (s.rrPointer + 3)).intake.stopped = false
      ∧ ∀ i : Slot, i < 3 → ¬((s.ctx (s.rrPointer + i)).intake.queue ≠ [] ∧ (s.ctx (s.rrPointer + i)).intake.stopped = false) := by
  decide

/-- 32 OPEN windows of 128 fragments each fill the pool; window 0 is OPEN and empty, and none is CLOSED. -/
def fullPool : State :=
  let f : Fragment := ⟨9, 0, 0, 0, 0, 1, 0, 0, 0, 0, 0, false, false, false, false, false, false, false⟩
  withWindows (withRecord (sat5 9500000) 0 block5)
    (openWin 0 :: (List.range 32).map fun k => { openWin (k + 100) with fragments := List.replicate 128 f })

/-- Station 5 as a PROBED station, with captures 0 and 1 held at slot 0 and its probe at the head of the queue. -/
def probed5 (t4 : Nat) : State :=
  (withRecord (withStation (sat5 9500000) 5 { Station.reset with state := .acquiring, config := ⟨.probed, 0, 0, 0, 0⟩ }) 0
    probe5).modCapture 0 fun _ => ⟨[⟨0, 1000000⟩, ⟨1, t4⟩], 2⟩

/-- A malformed record, a block refused in SETUP, a probe of a SATELLITE station, and a block that finds the pool full. -/
theorem witness_RecordsAreJudgedInOrderAndRefused :
    let bad := withRecord State.reset 0 (Vector.replicate 8 0)
    let blk := withRecord State.reset 0 block5
    let prb := withRecord (sat5 9500000) 0 probe5
    (bad.inReset = false ∧ bad.servedSlot = some 0 ∧ (bad.ctx 0).intake.queue = [Vector.replicate 8 0]
        ∧ IntakeRecord.wellFormedKind (Vector.replicate 8 0) = none)
      ∧ (blk.inReset = false ∧ blk.servedSlot = some 0 ∧ block5.wellFormedKind = some .block
        ∧ (blk.ctx 0).intake.queue = [block5]
        ∧ (match (blk.popQueue 0).judgeBlock 0 block5 with | .error e => some e | .ok _ => none) = some .state)
      ∧ (prb.inReset = false ∧ prb.servedSlot = some 0 ∧ probe5.wellFormedKind = some .probe
        ∧ (prb.ctx 0).intake.queue = [probe5]
        ∧ (match (prb.popQueue 0).judgeProbe 0 probe5 with | .error e => some e | .ok _ => none) = some .mode)
      ∧ fullPool.inReset = false ∧ fullPool.servedSlot = some 0 ∧ (fullPool.ctx 0).intake.queue = [block5] := by decide

theorem witness_RecordsAreJudgedInOrderAndRefused_pool :
    (match (fullPool.popQueue 0).judgeBlock 0 block5 with
      | .ok p => some ((fullPool.popQueue 0).placeFragments p.2.fragments).2
      | .error _ => none) = some none := by decide

theorem witness_RecordsAreJudgedInOrderAndRefused_order :
    (sat5 9500000).RingGood ∧ block5.station = (5 : StationNo).val
      ∧ 127 < IntakeRecord.station (#v[0x10800001, 0, 0, 0, 0, 0, 0, 0] : Vector Word 8) := by decide

/-- Window 0 is OPEN and window 1 is not held: the block is placed PART_LATE. -/
def partLate5 : State := withWindows (withRecord (sat5 9500000) 0 block5) [openWin 0]

theorem partLate5_stations_good : partLate5.StationsGood := by
  intro n
  by_cases h : n = 5
  · subst h
    refine ⟨by decide, by decide, by decide, by decide, by decide, by decide, by decide, by decide, by decide⟩
  · rw [show partLate5.station n = State.reset.station n from State.station_setStation_of_ne h _ _, reset_station]
    exact reset_station_good

theorem witness_PlacedBlockHasItsOutcome :
    partLate5.inReset = false ∧ partLate5.servedSlot = some 0 ∧ (partLate5.ctx 0).intake.queue = [block5]
      ∧ block5.wellFormedKind = some .block
      ∧ (match (partLate5.popQueue 0).judgeBlock 0 block5 with
          | .ok p => ((partLate5.popQueue 0).placeFragments p.2.fragments).2
          | .error _ => none) = some (1, 1) := by decide

/-- t1 = 1,000,000, t2 = 2,000,000, t3 = t2 + 40; t4 = t1 + 40 + 100,000, the greatest delay accepted. -/
theorem witness_AcceptedProbeIsProcessed :
    let s := probed5 1100040
    s.inReset = false ∧ s.servedSlot = some 0 ∧ (s.ctx 0).intake.queue = [probe5] ∧ probe5.wellFormedKind = some .probe
      ∧ probe5.station = (5 : StationNo).val ∧ s.owns 0 5 = true ∧ (s.station 5).state ≠ .disabled
      ∧ (s.station 5).config.mode = .probed ∧ (s.ctx 0).capture.lookup probe5.sendSeq = some 1000000
      ∧ (s.ctx 0).capture.lookup probe5.receiveSeq = some 1100040 ∧ (s.station 5).horizon = none
      ∧ probe5.rawT2 = 2000000 ∧ ((2000040 : Nat) : Int) = extendStamp probe5.rawT3 2000000
      ∧ 2000040 - 2000000 ≤ 1100040 - 1000000 ∧ 1100040 - 1000000 - (2000040 - 2000000) = s.params.maxDelay := by decide

theorem witness_ThresholdAndIntakeReset :
    let s (k : Word) := withArgs State.reset 1 #v[k, 0, 0, 0, 0, 0, 0]
    (s 15).Ready 1 ∧ ((s 15).arg 1 0).toNat ∈ [4, 8, 12, 15] ∧ (s 16).Ready 1 ∧ ((s 16).arg 1 0).toNat ∉ [4, 8, 12, 15] := by
  decide

theorem witness_QueuesAndFlagsStayGood :
    running.IntakesGood ∧ running.NoticesGood ∧ ∃ t, step running = .next t := ⟨by decide, by decide, ⟨_, rfl⟩⟩

/-- A CLOSED window held; a fragment for an OPEN window and one for a window not held. -/
theorem witness_PlacementReclaimsEntersAndDrops :
    let s := withWindows State.reset [closedWin 0 [1, 2]]
    (s.RingGood ∧ closedWin 0 [1, 2] ∈ s.held ∧ (closedWin 0 [1, 2]).isOpen = false)
      ∧ partLate5.RingGood ∧ partLate5.holdsOpen 0 = true ∧ partLate5.holdsOpen 1 = false := by decide

/-- The expiry time of window 1 reached, with slot 0 not enrolled, slot 1 enrolled with 7 notices and slot 2 with 8; and the
event of a window that is not held. -/
theorem witness_ExpiryClosesAnOpenWindow :
    let nt : Notice := ⟨0, .flush, 0, 0, 0⟩
    let u := withWindows (withTime (at_ .locked 50000000) fun t => { t with expiryDue := some 1 }) [openWin 1]
    let s := ((State.modReader { u with part := .run } 1
      fun r => { r with enrolled := true, notices := List.replicate 7 nt }).modReader 2
      fun r => { r with enrolled := true, notices := List.replicate 8 nt })
    (s.inReset = false ∧ s.RingGood ∧ s.timebase.expiryDue = some 1 ∧ s.findWindow 1 = some (openWin 1)
        ∧ (openWin 1).isOpen = true
        ∧ (1 + 1) * (1000000 * s.params.windowLength) + 1000000 * s.params.holdOpen = s.timebase.us
        ∧ (s.ctx 0).reader.enrolled = false ∧ (s.ctx 1).reader.enrolled = true
        ∧ (s.ctx 1).reader.notices.length < 8 ∧ (s.ctx 2).reader.enrolled = true ∧ 8 ≤ (s.ctx 2).reader.notices.length)
      ∧ { s with windows := State.reset.windows }.holdsOpen 1 = false := by decide

/-- A ring with an OPEN and a CLOSED window in RUN. -/
def ringed : State := { withWindows running [openWin 1, closedWin 0 [1, 2]] with part := .run }

theorem witness_RingStaysGood : ringed.RingGood ∧ ∃ t, step ringed = .next t := ⟨by decide, ⟨_, rfl⟩⟩

/-- A FREE slot; and a ring of 64 CLOSED windows, the lowest in slot 63. A boundary of window 1 in RUN with window 2 held and
not held. START with L = 1 and H = 60 and 61: 64 and 65 window slots. -/
theorem witness_WindowsOpenAtStartAndAtBoundaries :
    let lh (h : Nat) := { withWindows (at_ .locked 9) [closedWin 0 [1]] with
      params := { Params.reset with windowLength := 1, holdOpen := h } }
    let bound (n : Nat) := { withWindows (withTime (at_ .locked 10000000) fun t => { t with boundaryDue := some 1 })
      [openWin 0, openWin n] with part := .run }
    let due := withTime (at_ .locked 10000000) fun t => { t with boundaryDue := some 1 }
    (ringed.RingGood ∧ ringed.windows[(2 : Fin 64)] = none ∧ ∀ j : Fin 64, j < 2 → ringed.windows[j] ≠ none)
      ∧ (∀ n ∈ [1, 2], (bound n).inReset = false ∧ (bound n).RingGood ∧ (bound n).part = .run
        ∧ (bound n).timebase.boundaryDue = some 1)
      ∧ ((∃ w ∈ (bound 2).held, w.number = 1 + 1) ∧ ∀ w ∈ (bound 1).held, w.number ≠ 1 + 1)
      ∧ ((at_ .free 0).Ready 3 ∧ (at_ .free 0).RingGood
        ∧ (at_ .free 0).timebase.discipline ∉ ([.locked, .holdover, .slewing] : List Discipline))
      ∧ (ringed.Ready 3 ∧ ringed.RingGood ∧ ringed.part = .run)
      ∧ (due.Ready 3 ∧ due.RingGood ∧ due.part = .setup ∧ due.timebase.boundaryDue ≠ none)
      ∧ ((lh 60).Ready 3 ∧ (lh 60).RingGood ∧ (lh 60).part = .setup ∧ (60 + 1 - 1) / 1 + 4 = 64
        ∧ (lh 60).timebase.discipline ∈ ([.locked, .holdover, .slewing] : List Discipline))
      ∧ (lh 61).Ready 3 ∧ (lh 61).RingGood ∧ (lh 61).part = .setup ∧ (61 + 1 - 1) / 1 + 4 = 65 := by
  refine ⟨by decide, by decide, by decide, by decide, by decide, by decide, by decide, by decide, by decide, by decide,
    by decide⟩

/-- 64 CLOSED windows, the lowest number in slot 63. -/
def fullRing : State := withWindows State.reset ((List.range 64).map fun k => closedWin (63 - k) [])

theorem fullRing_closed : ∀ x ∈ fullRing.held, x.isOpen = false ∧ 0 ≤ x.number := by decide

theorem witness_WindowsOpenAtStartAndAtBoundaries_full :
    fullRing.RingGood ∧ (∀ j : Fin 64, fullRing.windows[j] ≠ none)
      ∧ fullRing.windows[(63 : Fin 64)] = some (closedWin 0 []) := by
  refine ⟨⟨by decide, by decide, by decide, by decide⟩, by decide, by decide⟩

/-- 06 section 6.9, R118: START and the boundary of window 1 fall together. START first opens windows 0 and 1, and the
boundary then closes window 0, which expects no station, and opens 2; the boundary first leaves START windows 1 and 2. -/
theorem test_start_and_boundary_together :
    let s := withTime (at_ .locked 10000000) fun t => { t with boundaryDue := some 1 }
    (after (.start 0) s).openNumbers = [0, 1] ∧ (after (.start 0) (after .boundaryEvent s)).openNumbers = [1, 2]
      ∧ (after .boundaryEvent (after (.start 0) s)).openNumbers = [1, 2]
      ∧ (after .boundaryEvent (after (.start 0) s)).closedNumbers = [0] := by decide

theorem witness_HaltFlushesEveryOpenWindow :
    ringed.Ready 0 ∧ ringed.RingGood ∧ ringed.part = .run ∧ State.reset.Ready 0 ∧ State.reset.RingGood
      ∧ State.reset.part = .setup := by decide

/-- An OPEN window and three CLOSED ones. -/
def ringOfFour : State := withWindows ringed [openWin 1, closedWin 0 [1, 2], closedWin 2 [2], closedWin 3 [1]]

theorem ringOfFour_good : ringOfFour.RingGood := by
  refine ⟨by decide, by decide, by decide, by decide⟩

/-- RELEASE by slot 1: of a window not held (7), an OPEN one (1), one that owes slots 1 and 2 (0), one that owes slot 2 alone
(2) and one that owes slot 1 alone (3). -/
def releasing (n : Word) : State := withArgs ringOfFour 1 #v[n, 0, 0, 0, 0, 0, 0]

theorem releasing_ring_good (n : Word) : (releasing n).RingGood := ringOfFour_good

theorem witness_ReleaseFreesTheLastOwed :
    (∀ n : Word, (releasing n).Ready 1 ∧ (releasing n).arg 1 0 = n ∧ (releasing n).arg 1 1 = 0)
      ∧ (∀ w ∈ (releasing 7).held, w.number ≠ 7)
      ∧ (openWin 1 ∈ (releasing 1).held ∧ (openWin 1).isOpen = true)
      ∧ (closedWin 0 [1, 2] ∈ (releasing 0).held ∧ (closedWin 0 [1, 2]).isOpen = false
        ∧ (1 : Slot) ∈ (closedWin 0 [1, 2]).pending ∧ ∃ k ∈ (closedWin 0 [1, 2]).pending, k ≠ 1)
      ∧ (closedWin 2 [2] ∈ (releasing 2).held ∧ (1 : Slot) ∉ (closedWin 2 [2]).pending)
      ∧ closedWin 3 [1] ∈ (releasing 3).held ∧ (closedWin 3 [1]).pending = [1] := by
  refine ⟨fun n => ⟨withArgs_ready (by decide) _, withArgs_arg .., withArgs_arg ..⟩, by decide, by decide, by decide,
    by decide, by decide⟩

theorem witness_EnrolAndWithdraw :
    let s := (releasing 0).modReader 1 fun r => { r with enrolled := true }
    (s.Ready 1 ∧ s.RingGood ∧ (s.ctx 1).reader.enrolled = true)
      ∧ (releasing 0).Ready 1 ∧ (releasing 0).RingGood ∧ ((releasing 0).ctx 1).reader.enrolled = false :=
  ⟨⟨by decide, ringOfFour_good, by decide⟩, by decide, ringOfFour_good, by decide⟩

theorem witness_PopWordReadAndWrite :
    let nt : Notice := ⟨0, .flush, 0, 0, 0⟩
    let s := State.reset.modReader 1 fun r => { r with notices := [nt] }
    s.inReset = false ∧ (s.ctx 1).reader.notices = [nt] ∧ State.reset.inReset = false
      ∧ (State.reset.ctx 1).reader.notices = [] := by decide

/-- Cursors in every condition; at the last position of a station snapshot and of a manifest of 11 words. A CLOSED window of
two fragments. -/
theorem witness_CursorPortReadAndWrite :
    let fragment5 (k : Nat) : Fragment :=
      ⟨5, 2, 0xABCD, 500, k, 1, 10000000 + k, 10000000 + k, 840, -1, 7, true, false, false, true, false, false, true⟩
    let filed : Window := { closedWin 1 [1] with fragments := [fragment5 0, fragment5 9] }
    let cur (t : CursorTarget) (p : Nat) (c : CursorCondition) :=
      (releasing 0).setCursor 1 ⟨t, p, c, Vector.replicate 16 0⟩
    (∀ c ∈ [CursorCondition.none, .reading, .atEnd, .gone], ∀ t ∈ [CursorTarget.window 0, .station 5],
        (cur t 0 c).inReset = false ∧ ((cur t 0 c).ctx 1).reader.cursor.condition = c)
      ∧ (cur (.window 0) 10 .reading).findWindow 0 = some (closedWin 0 [1, 2])
      ∧ 11 + 6 * (closedWin 0 [1, 2]).fragments.length = 11
      ∧ ((cur (.station 5) 15 .reading).ctx 1).reader.cursor.position < 16
      ∧ ((cur (.station 5) 15 .reading).ctx 1).reader.cursor.target = .station 5
      ∧ filed.closed = some .flush ∧ filed.fragments = [fragment5 0] ++ fragment5 9 :: [] := by decide

/-- OPEN CURSOR of kind 3, of stations 127 and 128, of a window not held, an OPEN one and a CLOSED one. -/
theorem witness_OpenCursorReplacesTheCursor :
    let s (kind number : Word) := withArgs (releasing 0) 1 #v[kind, number, 0, 0, 0, 0, 0]
    (∀ kind number : Word, (s kind number).Ready 1 ∧ (s kind number).arg 1 0 = kind ∧ (s kind number).arg 1 1 = number
        ∧ (s kind number).arg 1 2 = 0)
      ∧ ((127 : StationNo).val = 127 ∧ (releasing 0).findWindow 7 = none)
      ∧ ((releasing 0).findWindow 1 = some (openWin 1) ∧ (openWin 1).isOpen = true)
      ∧ (releasing 0).findWindow 0 = some (closedWin 0 [1, 2]) ∧ (closedWin 0 [1, 2]).isOpen = false := by
  refine ⟨fun k n => ⟨withArgs_ready (by decide) _, withArgs_arg .., withArgs_arg .., withArgs_arg ..⟩, by decide, by decide,
    by decide⟩

theorem witness_FlagsAndEnablesAreWritten : State.reset.inReset = false := by decide

/-- Nothing pending and enabled; and REQUEST DONE alone, the lowest cause. -/
theorem witness_PollReportsTheHighestCause :
    let s := State.reset.modAttention 2 fun _ => ⟨0x3F#6, 0x20#6⟩
    let both := (s.ctx 2).attention.pending &&& (s.ctx 2).attention.enables
    (State.reset.inReset = false ∧ (State.reset.ctx 2).attention.pending &&& (State.reset.ctx 2).attention.enables = 0)
      ∧ s.inReset = false ∧ both.getLsbD 5 = true ∧ ∀ j : Fin 5, both.getLsbD j = false := by decide

/-- Base select 3: word addresses 49,152 and 65,535 inside, 49,151 and 65,536 outside; an address phase of two ones, and of
three with its parity bit; lane 3 with an even number of ones; a word returned. -/
theorem witness_ParityFailuresAreRecorded :
    let s : State := { State.reset with straps := ⟨3, .rising, .rising⟩ }
    let inside (a : Nat) : Prop := 16384 * s.straps.base.toNat ≤ a ∧ a ≤ 16384 * s.straps.base.toNat + 16383
    let ones (a : WordAddress) (m : Slot) (d : Direction) (parity : Bool) : Nat :=
      (List.range 18).countP (fun i => a.getLsbD i) + (List.range 2).countP (fun i => m.val.testBit i)
        + (if d = .write then 1 else 0) + parity.toNat
    s.inReset = false ∧ inside (BitVec.ofNat 18 49152).toNat ∧ inside (BitVec.ofNat 18 65535).toNat
      ∧ ¬inside (BitVec.ofNat 18 49151).toNat ∧ ¬inside (BitVec.ofNat 18 65536).toNat
      ∧ ones (BitVec.ofNat 18 49152) 0 .read false = 2 ∧ ones (BitVec.ofNat 18 49152) 0 .read true = 3
      ∧ ((List.range 8).countP (fun i => (0x80000000 : Word).getLsbD (8 * 3 + i)) + ((0xF : BitVec 4).getLsbD 3).toNat) % 2 = 0
      ∧ (BusAnswer.mk .ok (some 1)).data = some 1 := by
  decide

/-- Base select 3 again: the addresses next to the window, staging words 0 and 6, argument words 1 and 7, the last word of the
window, the words with rows of their own, and the codes 1 and 18. -/
theorem witness_RegisterWriteReachesItsWord :
    let s : State := { State.reset with straps := ⟨3, .rising, .rising⟩ }
    let b := 16384 * s.straps.base.toNat
    let at_ (k : Nat) := (BitVec.ofNat 18 (b + k)).toNat
    let odd (v : Word) (lanes : BitVec 4) : Prop := ∀ k ∈ List.range 4,
      ((List.range 8).countP (fun i => v.getLsbD (8 * k + i)) + (lanes.getLsbD k).toNat) % 2 = 1
    s.inReset = false ∧ odd 1 0xE ∧ odd 18 0xF
      ∧ (BitVec.ofNat 18 (b - 1)).toNat < b ∧ b + 16383 < at_ 16384
      ∧ at_ 8192 = b + 8192 + (0 : Fin 8).val ∧ at_ 8198 = b + 8192 + (6 : Fin 8).val
      ∧ at_ 8209 = b + 8192 + 17 + (0 : Fin 7).val ∧ at_ 8215 = b + 8192 + 17 + (6 : Fin 7).val
      ∧ (at_ 16383 = b + 16383 ∧ 16383 ∉ ([6, 8199, 8208, 8220, 8240, 8243, 8256, 8257] : List Nat))
      ∧ (∀ k ∈ ([6, 8199, 8208, 8220, 8240, 8243, 8256, 8257] : List Nat), at_ k = b + k)
      ∧ (18, Instr.contextReset 0 .codeWord) ∈ requestsOf 0 ∧ (18 : Word).toNat = (18 : BitVec 8).toNat := by decide

theorem witness_UnknownCodesAndRetries :
    (State.reset.inReset = false ∧ (State.reset.ctx 1).request.inFlight = false ∧ 18 < (19 : Word).toNat
        ∧ (0 : Word).toNat = 0)
      ∧ (armed 0).inReset = false ∧ ((armed 0).ctx 2).request.inFlight = true := by decide

/-- Codes 0 and 18; L in RUN, L in SETUP with a window held, H of 601 and of 600 with none held, the lock window in RUN. -/
theorem witness_SetParameterChecksInOrder :
    let s (code v : Word) := withArgs State.reset 1 #v[code, v, 0, 0, 0, 0, 0]
    let r : State := withArgs ringed 1 #v[15, 1, 0, 0, 0, 0, 0]
    (∀ code v : Word, (s code v).Ready 1 ∧ (s code v).arg 1 0 = code ∧ (s code v).arg 1 1 = v
        ∧ (s code v).part = .setup)
      ∧ State.reset.held = []
      ∧ (r.Ready 1 ∧ r.part = .run ∧ r.params.value 15 = some 10)
      ∧ ({ r with part := .setup }.held ≠ [])
      ∧ (Params.reset.value 16 = some 30 ∧ Params.reset.accepts 16 601 = false ∧ Params.reset.accepts 16 600 = true)
      ∧ Params.reset.value 1 = some 50 ∧ Params.reset.accepts 1 1000 = true := by
  refine ⟨fun c v => ⟨withArgs_ready (by decide) _, withArgs_arg .., withArgs_arg .., rfl⟩, by decide, by decide, by decide,
    by decide, by decide, by decide⟩

/-- The code in an IDLE slot, and the context reset word while the caller's SET TIME is in flight. -/
theorem witness_ContextResetReturnsTheContext :
    ((releasing 0).inReset = false ∧ (releasing 0).TimingGood ∧ (releasing 0).RingGood
        ∧ ((releasing 0).ctx 1).request.inFlight = false)
      ∧ (armed 0).inReset = false ∧ (armed 0).TimingGood ∧ (armed 0).RingGood
      ∧ ((armed 0).ctx 2).request.inFlight = true
      ∧ ((armed 0).timebase.inFlight.map SetTimeInFlight.slot) = some 2 :=
  ⟨⟨by decide, by decide, ringOfFour_good, by decide⟩, by decide, by decide, by decide, by decide, by decide⟩

/-- The part held in full reset, with an event and a transaction. -/
theorem witness_FullResetAndItsEnd :
    let s : State := { State.reset with busReset := true }
    s.inReset = true ∧ sender .oscillatorCycle = none ∧ sender (.pollRead 3) = some 3 := by decide

theorem witness_SlotsKeepToTheirOwnContext :
    sender (.halt 1) = some 1 ∧ (2 : Slot) ≠ 1 ∧ ∃ t, exec (.halt 1) ringed = .next t := ⟨by decide, by decide, ⟨_, rfl⟩⟩

end Sys2Proof.Tests
end

/-! PROOFS. The pulse and the SET TIME request, in the terms in which the statements give their next states. -/

namespace Sys2Proof.Machine

/-! ### A measured pulse, in window and out of it (R3, R8, R9, R11) -/

namespace Timebase

variable {t : Timebase} {p : Params}

/-- The measurement of a pulse in window counts it and moves the deadline (R3). -/
theorem measure_of_inWindow (h : inWindow p t.pulseError = true) :
    t.measure p = { t with
      lastError := t.pulseError, pulsesTaken := min 65535 (t.pulsesTaken + 1), deadline := some (t.us + 1500000) } := by
  simp [measure, h, raise16]

/-- A pulse out of window is also counted as such (R3). -/
theorem measure_of_outOfWindow (h : inWindow p t.pulseError = false) :
    t.measure p = { t with
      lastError := t.pulseError, pulsesTaken := min 65535 (t.pulsesTaken + 1),
      deadline := some (t.us + 1500000), outOfWindow := min 65535 (t.outOfWindow + 1) } := by
  simp [measure, h, raise16]

variable {e : Int}

theorem lockedPulse_of_inWindow (h : inWindow p e = true) : t.lockedPulse p e = t.disciplineUpdate p e := by
  simp [lockedPulse, h]

theorem lockedPulse_of_counted (h : inWindow p e = false) (hb : t.badRun < 2) :
    t.lockedPulse p e = { t with phasePart := 0, badRun := t.badRun + 1 } := by
  simp [lockedPulse, h, show ¬ 3 ≤ t.badRun + 1 by omega]

theorem lockedPulse_of_third (h : inWindow p e = false) (hb : 2 ≤ t.badRun) : t.lockedPulse p e = t.enterHoldover := by
  simp [lockedPulse, h, show 3 ≤ t.badRun + 1 by omega]

theorem holdoverPulse_of_outOfWindow (h : inWindow p e = false) : t.holdoverPulse p e = { t with goodRun := 0 } := by
  simp [holdoverPulse, h]

theorem holdoverPulse_of_counted (h : inWindow p e = true) (hg : t.goodRun < 3) :
    t.holdoverPulse p e = { t with goodRun := t.goodRun + 1 } := by
  simp [holdoverPulse, h, Nat.not_le.mpr hg]

theorem holdoverPulse_of_fourth (h : inWindow p e = true) (hg : 3 ≤ t.goodRun) :
    t.holdoverPulse p e = { t.disciplineUpdate p e with discipline := .locked, goodRun := 0 } := by
  simp [holdoverPulse, h, hg]

end Timebase

/-! ### A pulse taken by the part -/

namespace State

variable {s : State}

/-- An edge of the kind that the strap selects is a pulse (R3). -/
theorem exec_refPulse (h : s.inReset = false) : exec (.refPulse s.straps.refEdge) s = .next s.takePulse := by
  simp [exec, execRefPulse, onEvent, h]

theorem exec_refPulse_of_armed (hr : s.inReset = false) (hd : s.timebase.discipline = .armed) :
    exec (.refPulse s.straps.refEdge) s = .next s.armedPulse := by
  simp [exec_refPulse hr, takePulse, hd]

theorem exec_refPulse_of_locked (hr : s.inReset = false) (hd : s.timebase.discipline = .locked) :
    exec (.refPulse s.straps.refEdge) s =
      .next (s.withTimebase ((s.timebase.measure s.params).lockedPulse s.params s.timebase.pulseError)) := by
  simp [exec_refPulse hr, takePulse, hd]

theorem exec_refPulse_of_holdover (hr : s.inReset = false) (hd : s.timebase.discipline = .holdover) :
    exec (.refPulse s.straps.refEdge) s =
      .next (s.withTimebase ((s.timebase.measure s.params).holdoverPulse s.params s.timebase.pulseError)) := by
  simp [exec_refPulse hr, takePulse, hd]

/-- A pulse in ARMED, with what it completes written out (R5, R35). -/
theorem armedPulse_of_inFlight {f : SetTimeInFlight} (hd : s.timebase.discipline = .armed)
    (hf : s.timebase.inFlight = some f) :
    s.armedPulse =
      State.finished
        (State.setArrivals { s.timebaseRaised with timebase := s.timebase.setTime f } (million * f.second))
        f.slot .ok ⟨BitVec.ofNat 32 f.second, BitVec.ofNat 32 (f.second / 2 ^ 32), 0⟩ := by
  have hne : (s.timebase.setTime f).discipline ≠ s.timebase.discipline := by simp [hd]
  simp only [armedPulse, hf]
  rw [withTimebase_of_ne hne, complete_eq_finished, loWord, hiWord, Nat.shiftRight_eq_div_pow]

end State

/-! ### The pulse's statements -/

/-- Settles O7: the measured pulse steers, is counted, or is the third out of window in a row. -/
theorem lockedPulseSteersOrCounts : Obligations.LockedPulseSteersOrCounts := by
  intro s hr hd
  have hexec := State.exec_refPulse_of_locked hr hd
  refine ⟨fun hin => ?_, fun hout hb => ?_, fun hout hb => ?_⟩
  · have hw := inWindow_iff.mpr hin
    rw [hexec, Timebase.lockedPulse_of_inWindow hw, Timebase.measure_of_inWindow hw]
    exact congrArg _ (State.withTimebase_of_eq (by rfl))
  · have hw := inWindow_eq_false.mpr hout
    rw [hexec, Timebase.lockedPulse_of_counted (t := s.timebase.measure s.params) hw hb,
      Timebase.measure_of_outOfWindow hw]
    exact congrArg _ (State.withTimebase_of_eq (by rfl))
  · have hw := inWindow_eq_false.mpr hout
    rw [hexec, Timebase.lockedPulse_of_third (t := s.timebase.measure s.params) hw hb,
      Timebase.measure_of_outOfWindow hw]
    exact congrArg _ (State.withTimebase_of_ne (by simp [hd]))

/-- Settles O8: the measured pulse clears the good-run count, raises it, or is the fourth in window in a row. -/
theorem holdoverPulseCountsOrRelocks : Obligations.HoldoverPulseCountsOrRelocks := by
  intro s hr hd
  have hexec := State.exec_refPulse_of_holdover hr hd
  refine ⟨fun hout => ?_, fun hin hg => ?_, fun hin hg => ?_⟩
  · have hw := inWindow_eq_false.mpr hout
    rw [hexec, Timebase.holdoverPulse_of_outOfWindow hw, Timebase.measure_of_outOfWindow hw]
    exact congrArg _ (State.withTimebase_of_eq (by rfl))
  · have hw := inWindow_iff.mpr hin
    rw [hexec, Timebase.holdoverPulse_of_counted (t := s.timebase.measure s.params) hw hg,
      Timebase.measure_of_inWindow hw]
    exact congrArg _ (State.withTimebase_of_eq (by rfl))
  · have hw := inWindow_iff.mpr hin
    rw [hexec, Timebase.holdoverPulse_of_fourth (t := s.timebase.measure s.params) hw hg,
      Timebase.measure_of_inWindow hw]
    exact congrArg _ (State.withTimebase_of_ne (by simp [hd]))

/-- Settles O10: the order in which the model sets the time, the arrivals and the flags makes no difference. -/
theorem armedPulseSetsTheTime : Obligations.ArmedPulseSetsTheTime := by
  intro s f hr hd hf
  rw [State.exec_refPulse_of_armed hr hd, State.armedPulse_of_inFlight hd hf]
  rfl

/-! ### SET TIME (R4) -/

namespace State

variable {s : State} {m : Slot}

theorem requestSetTime_of_armed (h : s.timebase.discipline = .armed) : s.requestSetTime m = s.completeBare m .busy := by
  simp [requestSetTime, h]

theorem requestSetTime_of_valid (h : s.timebase.discipline.valid = true) :
    s.requestSetTime m = s.completeBare m .state := by
  unfold requestSetTime
  revert h
  cases s.timebase.discipline <;> simp [Discipline.valid]

theorem requestSetTime_of_beyond (h : s.timebase.discipline = .free) (hn : maxSecond < s.argWide m 0 1) :
    s.requestSetTime m = s.completeBare m .badArg := by
  simp [requestSetTime, h, hn]

theorem requestSetTime_of_inRange (h : s.timebase.discipline = .free) (hn : s.argWide m 0 1 ≤ maxSecond) :
    s.requestSetTime m = s.arm m (s.argWide m 0 1) := by
  simp [requestSetTime, h, Nat.not_lt.mpr hn]

/-- SET TIME taken as a request in a state that is ready for it (R158). -/
theorem exec_setTime (h : s.Ready m) :
    exec (.setTime m) s = .next (((s.noteCode m 1).requestSetTime m).answer .ok none) :=
  congrArg Host.Outcome.next (onRequest_of_ready h 1 _)

/-- The second N that SET TIME asks for, by its two argument words (R4, R175). -/
theorem argWide_noteCode_eq (s : State) (m : Slot) (v : Word) :
    (s.noteCode m v).argWide m 0 1 = (s.arg m 0).toNat + 2 ^ 32 * (s.arg m 1).toNat := by
  rw [argWide_noteCode, argWide, wide]

/-- A request noted and left in flight with its result PENDING (R158, R160). -/
theorem answer_pending_noteCode (s : State) (m : Slot) (v : Word) :
    ((s.noteCode m v).modRequest m fun r =>
        { r with inFlight := true, result := ⟨r.lastCode, r.number, .pending, Values.zero⟩ }).answer .ok none
      = s.leftInFlight m (BitVec.ofNat 8 v.toNat) := by
  simp [leftInFlight, answer, noteCode, modRequest, modCtx, setCtx, ctx]

/-- SET TIME noted and armed: the Timebase ARMED, TIMEBASE pending at every slot, the slot left in flight (R4). -/
theorem answer_arm_noteCode (h : s.timebase.discipline = .free) (v : Word) (second : Nat) :
    ((s.noteCode m v).arm m second).answer .ok none =
      State.leftInFlight
        (State.timebaseRaised { s with timebase := { s.timebase with
          discipline := .armed, inFlight := some ⟨m, second, s.timebase.us⟩ } })
        m (BitVec.ofNat 8 v.toNat) := by
  rw [arm, withTimebase_of_ne (by simp [h]), timebaseRaised_noteCode, ← answer_pending_noteCode]
  rfl

end State

/-- Settles O16: one case for each row of R4. -/
theorem setTimeArmsOrCompletes : Obligations.SetTimeArmsOrCompletes := by
  intro s m hready
  have hexec := State.exec_setTime hready
  refine ⟨fun hd => ?_, fun hd => ?_, fun hd hn => ?_, fun hd hn => ?_⟩
  · rw [hexec, State.requestSetTime_of_armed (s := s.noteCode m 1) hd, State.answer_completeBare_noteCode]
    rfl
  · have hv : s.timebase.discipline.valid = true := by
      simp only [List.mem_cons, List.not_mem_nil, or_false] at hd
      rcases hd with h | h | h <;> rw [h] <;> rfl
    rw [hexec, State.requestSetTime_of_valid (s := s.noteCode m 1) hv, State.answer_completeBare_noteCode]
    rfl
  · have hw : maxSecond < (s.noteCode m 1).argWide m 0 1 := by rw [State.argWide_noteCode_eq]; exact hn
    rw [hexec, State.requestSetTime_of_beyond (s := s.noteCode m 1) hd hw, State.answer_completeBare_noteCode]
    rfl
  · have hw : (s.noteCode m 1).argWide m 0 1 ≤ maxSecond := by rw [State.argWide_noteCode_eq]; exact hn
    rw [hexec, State.requestSetTime_of_inRange (s := s.noteCode m 1) hd hw, State.answer_arm_noteCode hd,
      State.argWide_noteCode_eq]
    rfl

end Sys2Proof.Machine

/-! PROOFS. Changes of discipline state and the TIMEBASE cause (R14): `State.marks` is what R14 speaks of, one lemma for
each operation that leaves it alone, and `State.Marked` for the operations that may change the discipline state. -/

namespace Sys2Proof.Machine

/-- TIMEBASE (bit 2) is pending at slot m (R139). -/
def State.timebasePending (s : State) (m : Slot) : Bool := (s.ctx m).attention.pending.getLsbD 2

/-- What R14 speaks of: the discipline state, and the slots at which TIMEBASE is pending. -/
def State.marks (s : State) : Discipline × (Slot → Bool) := (s.timebase.discipline, s.timebasePending)

namespace State

theorem marks_eq_of {s t : State} (hd : t.timebase.discipline = s.timebase.discipline)
    (hp : ∀ m : Slot, (t.ctx m).attention.pending.getLsbD 2 = (s.ctx m).attention.pending.getLsbD 2) :
    t.marks = s.marks := Prod.ext hd (funext hp)

theorem discipline_of_marks {s t : State} (h : t.marks = s.marks) :
    t.timebase.discipline = s.timebase.discipline := congrArg Prod.fst h

theorem timebasePending_of_marks {s t : State} (h : t.marks = s.marks) (m : Slot) :
    t.timebasePending m = s.timebasePending m := congrFun (congrArg Prod.snd h) m

/-! ### The small operations -/

section Small

variable (s : State) (m : Slot) (n : StationNo)

theorem marks_modCtx {f : Context → Context}
    (h : ∀ c : Context, (f c).attention.pending.getLsbD 2 = c.attention.pending.getLsbD 2) :
    (s.modCtx m f).marks = s.marks := by
  refine marks_eq_of rfl fun k => ?_
  by_cases hk : k = m
  · subst hk
    rw [ctx_modCtx_same, h]
  · rw [ctx_modCtx_of_ne hk]

theorem marks_modAllCtx {f : Context → Context}
    (h : ∀ c : Context, (f c).attention.pending.getLsbD 2 = c.attention.pending.getLsbD 2) :
    (s.modAllCtx f).marks = s.marks :=
  marks_eq_of rfl fun k => by rw [ctx_modAllCtx, h]

theorem marks_modAttention {f : Attention → Attention}
    (h : ∀ a : Attention, (f a).pending.getLsbD 2 = a.pending.getLsbD 2) :
    (s.modAttention m f).marks = s.marks := marks_modCtx s m fun c => h c.attention

@[simp] theorem marks_modIntake (f : Intake → Intake) : (s.modIntake m f).marks = s.marks :=
  marks_modCtx s m fun _ => rfl

@[simp] theorem marks_modCapture (f : Capture → Capture) : (s.modCapture m f).marks = s.marks :=
  marks_modCtx s m fun _ => rfl

@[simp] theorem marks_modReader (f : Reader → Reader) : (s.modReader m f).marks = s.marks :=
  marks_modCtx s m fun _ => rfl

@[simp] theorem marks_modRequest (f : RequestSlot → RequestSlot) : (s.modRequest m f).marks = s.marks :=
  marks_modCtx s m fun _ => rfl

@[simp] theorem marks_setRangeEntry (r : Option Range) : (s.setRangeEntry m r).marks = s.marks :=
  marks_modCtx s m fun _ => rfl

@[simp] theorem marks_noteCode (v : Word) : (s.noteCode m v).marks = s.marks := marks_modRequest s m _

@[simp] theorem marks_modStation (f : Station → Station) : (s.modStation n f).marks = s.marks := rfl

@[simp] theorem marks_modAllStations (f : Station → Station) : (s.modAllStations f).marks = s.marks := rfl

@[simp] theorem marks_modWindow (w : Nat) (f : Window → Window) : (s.modWindow w f).marks = s.marks := rfl

@[simp] theorem marks_answer (r : Response) (d : Option Word) : (s.answer r d).marks = s.marks := rfl

@[simp] theorem marks_answerRead (p : State × Word) : (answerRead p).marks = p.1.marks := rfl

theorem marks_setTimebase {t : Timebase} (h : t.discipline = s.timebase.discipline) :
    (s.setTimebase t).marks = s.marks := marks_eq_of h fun _ => rfl

/-- A raise of another cause leaves TIMEBASE as it is (R139). -/
@[simp] theorem marks_raise {c : Cause} (h : c ≠ .timebase) : (s.raise m c).marks = s.marks := by
  refine marks_modAttention s m fun a => ?_
  rw [Attention.getLsbD_raise a c (by decide)]
  cases c <;> simp_all [Cause.index]

@[simp] theorem marks_postResult (code : BitVec 8) (st : Status) (v : Values) :
    (s.postResult m code st v).marks = s.marks := by simp [postResult]

@[simp] theorem marks_complete (st : Status) (v : Values) : (s.complete m st v).marks = s.marks := by simp [complete]

@[simp] theorem marks_completeBare (st : Status) : (s.completeBare m st).marks = s.marks := by simp [completeBare]

/-- Operations that each leave the marks leave them one after the other; `g` reads the state out of what is folded. -/
theorem marks_foldl {α β : Type} (g : β → State) {f : β → α → β} (h : ∀ b a, (g (f b a)).marks = (g b).marks)
    (l : List α) (b : β) : (g (l.foldl f b)).marks = (g b).marks :=
  List.foldlRecOn l f (motive := fun x => (g x).marks = (g b).marks) rfl fun x hx a _ => (h x a).trans hx

end Small

/-! ### The Window Store -/

section Windows

variable (s : State) (m : Slot) (n : Nat)

@[simp] theorem marks_handNotice (nt : Notice) : (s.handNotice m nt).marks = s.marks := by
  unfold handNotice
  dsimp only
  split
  · split <;> simp
  · simp

@[simp] theorem marks_closeWindow (reason : CloseReason) : (s.closeWindow n reason).marks = s.marks := by
  unfold closeWindow
  split
  · split
    · exact marks_foldl id (fun t k => marks_handNotice t k _) _ _
    · rfl
  · rfl

@[simp] theorem marks_completenessCheck : (s.completenessCheck n).marks = s.marks := by
  unfold completenessCheck
  split
  · split <;> simp
  · rfl

@[simp] theorem marks_dropWindow : (s.dropWindow n).marks = s.marks := marks_modAllCtx _ fun _ => rfl

@[simp] theorem marks_missWindow : (s.missWindow m n).marks = s.marks := by simp [missWindow]

@[simp] theorem marks_reclaim : (s.reclaim n).marks = s.marks := by
  unfold reclaim
  split
  · rw [marks_dropWindow]
    exact marks_foldl id (fun t k => marks_missWindow t k n) _ _
  · rfl

@[simp] theorem marks_reclaimFor (need fuel : Nat) : (s.reclaimFor need fuel).marks = s.marks := by
  induction fuel generalizing s with
  | zero => rfl
  | succ fuel ih =>
    unfold reclaimFor
    split
    · rfl
    · split
      · rfl
      · rw [ih, marks_reclaim]

@[simp] theorem marks_releaseWindow : (s.releaseWindow m n).1.marks = s.marks := by
  unfold releaseWindow
  dsimp only
  split
  · split <;> simp
  · simp

@[simp] theorem marks_releaseAll : (s.releaseAll m).1.marks = s.marks := by
  unfold releaseAll
  refine marks_foldl Prod.fst (fun p n => ?_) _ _
  exact marks_releaseWindow p.1 m n

@[simp] theorem marks_openInFreeSlot : (s.openInFreeSlot n).marks = s.marks := by
  unfold openInFreeSlot
  split <;> rfl

@[simp] theorem marks_openWindow : (s.openWindow n).marks = s.marks := by
  unfold openWindow
  split <;> simp

@[simp] theorem marks_removeExpectedIn (st : StationNo) : (s.removeExpectedIn st n).marks = s.marks := by
  unfold removeExpectedIn
  split
  · split <;> simp
  · rfl

@[simp] theorem marks_removeExpected (st : StationNo) : (s.removeExpected st).marks = s.marks :=
  marks_foldl id (fun t n => marks_removeExpectedIn t n st) _ _

@[simp] theorem marks_endCheck (now : Nat) : (s.endCheck now n).marks = s.marks := by
  unfold endCheck
  dsimp only
  split
  · split <;> simp
  · rfl

@[simp] theorem marks_windowBoundary : (s.windowBoundary n).marks = s.marks := by
  unfold windowBoundary
  dsimp only
  have hchecks (now : Nat) (l : List Nat) : (l.foldl (fun t n => t.endCheck now n) s).marks = s.marks :=
    marks_foldl id (fun t n => marks_endCheck t n now) l s
  split
  · split <;> simp [hchecks]
  · rfl

@[simp] theorem marks_flushAll : s.flushAll.marks = s.marks :=
  marks_foldl id (fun t n => marks_closeWindow t n _) _ _

@[simp] theorem marks_placeOne (p : State × Nat × Nat) (wf : Nat × Fragment) : (placeOne p wf).1.marks = p.1.marks := by
  unfold placeOne
  dsimp only
  split <;> simp [dropFragment]

@[simp] theorem marks_placeFragments (l : List (Nat × Fragment)) : (s.placeFragments l).1.marks = s.marks := by
  unfold placeFragments
  dsimp only
  split
  · simp
  · rw [marks_foldl Prod.fst marks_placeOne]
    simp

end Windows

/-! ### Stations, intake and readers -/

section Blocks

variable (s : State) (m : Slot) (n : StationNo) (rec : IntakeRecord)

@[simp] theorem marks_leaveService (f : Station → Station) : (s.leaveService n f).marks = s.marks := by
  unfold leaveService
  split <;> simp

@[simp] theorem marks_stationBoundary : s.stationBoundary.marks = s.marks := rfl

@[simp] theorem marks_scanStation : (s.scanStation n).marks = s.marks := by
  unfold scanStation
  split <;> simp

@[simp] theorem marks_scanStations : s.scanStations.marks = s.marks := marks_foldl id marks_scanStation _ _

@[simp] theorem marks_setArrivals (now : Nat) : (s.setArrivals now).marks = s.marks := rfl

@[simp] theorem marks_disableRange : (s.disableRange m).marks = s.marks := by
  unfold disableRange
  rw [marks_setRangeEntry]
  exact marks_foldl id (fun t n => marks_leaveService t n _) _ _

@[simp] theorem marks_commitWord (v : Word) : (s.commitWord m v).marks = s.marks := by
  unfold commitWord
  split <;> simp

@[simp] theorem marks_clearHold : (s.clearHold m).marks = s.marks := by
  unfold clearHold
  split <;> simp

@[simp] theorem marks_popQueue : (s.popQueue m).marks = s.marks := by
  unfold popQueue
  dsimp only
  split <;> simp

@[simp] theorem marks_writeRefusal (f : LastRefusal) : (s.writeRefusal m f).marks = s.marks := marks_modIntake s m _

@[simp] theorem marks_stopMalformed : (s.stopMalformed m rec).marks = s.marks := by simp [stopMalformed]

@[simp] theorem marks_countAtStation (f : StationCounters → StationCounters) :
    (s.countAtStation rec f).marks = s.marks := by
  unfold countAtStation
  split <;> simp

@[simp] theorem marks_refuseBlock (code : RefusalCode) : (s.refuseBlock m rec code).marks = s.marks := by
  simp [refuseBlock, refuseAtSlot]

@[simp] theorem marks_refuseProbe (code : RefusalCode) : (s.refuseProbe m rec code).marks = s.marks := by
  simp [refuseProbe, refuseAtSlot]

@[simp] theorem marks_blockOutcome (stamp : Option Nat) (entered dropped : Nat) :
    (s.blockOutcome m n rec stamp entered dropped).marks = s.marks := by
  unfold blockOutcome
  dsimp only
  split <;> simp

@[simp] theorem marks_takeBlock : (s.takeBlock m rec).marks = s.marks := by
  unfold takeBlock
  split
  · simp
  · rename_i c _
    have hplace := marks_placeFragments s c.fragments
    split <;> simp_all

@[simp] theorem marks_takeProbe : (s.takeProbe m rec).marks = s.marks := by
  unfold takeProbe
  split <;> simp

@[simp] theorem marks_takeHead : (s.takeHead m rec).marks = s.marks := by
  unfold takeHead
  split <;> simp

@[simp] theorem marks_takeRecord : s.takeRecord.marks = s.marks := by
  unfold takeRecord
  split
  · rfl
  · split
    · rfl
    · exact marks_takeHead s _ _

@[simp] theorem marks_resetIntakeQueue : (s.resetIntakeQueue m).marks = s.marks := by simp [resetIntakeQueue]

@[simp] theorem marks_popNotice : (s.popNotice m).1.marks = s.marks := by
  have hclear (t : State) : (t.modAttention m fun a => a.clear .closed).marks = t.marks :=
    marks_modAttention t m fun a => by rw [Attention.getLsbD_clear a _ (by decide)]; simp [Cause.index]
  unfold popNotice
  dsimp only
  split
  · split <;> simp [hclear]
  · simp

@[simp] theorem marks_readCursor : (s.readCursor m).1.marks = s.marks := by
  unfold readCursor
  dsimp only
  split
  · rfl
  · rfl
  · rfl
  · split <;> simp

@[simp] theorem marks_moveCursor (v : Nat) : (s.moveCursor m v).marks = s.marks := by
  unfold moveCursor
  dsimp only
  split
  · rfl
  · rfl
  · split <;> simp
  · split <;> simp

@[simp] theorem marks_setCursor (c : Cursor) : (s.setCursor m c).marks = s.marks := marks_modReader s m _

@[simp] theorem marks_takeCapture : (s.takeCapture m).marks = s.marks := by
  unfold takeCapture
  split <;> simp

end Blocks

/-! ### The requests that leave the discipline state -/

section Requests

variable (s : State) (m : Slot)

@[simp] theorem marks_requestReadTime : (s.requestReadTime m).marks = s.marks := by simp [requestReadTime]

@[simp] theorem marks_requestSetRange : (s.requestSetRange m).marks = s.marks := by
  unfold requestSetRange
  split
  · simp
  · split
    · simp
    · split <;> simp

theorem marks_ownerRequest {act : StationNo → State} (h : ∀ n, (act n).marks = s.marks) :
    (s.ownerRequest m act).marks = s.marks := by
  unfold ownerRequest
  split
  · simp
  · split <;> simp [h]

@[simp] theorem marks_requestEnableStation : (s.requestEnableStation m).marks = s.marks :=
  marks_ownerRequest s m fun n => by split <;> simp

@[simp] theorem marks_requestDisableStation : (s.requestDisableStation m).marks = s.marks :=
  marks_ownerRequest s m fun n => by split <;> simp

@[simp] theorem marks_requestConfigureStation : (s.requestConfigureStation m).marks = s.marks :=
  marks_ownerRequest s m fun n => by
    split
    · simp
    · split <;> simp

@[simp] theorem marks_requestClearCounters : (s.requestClearCounters m).marks = s.marks :=
  marks_ownerRequest s m fun n => by simp

@[simp] theorem marks_requestIntakeReset : (s.requestIntakeReset m).marks = s.marks := by simp [requestIntakeReset]

@[simp] theorem marks_requestSetThreshold : (s.requestSetThreshold m).marks = s.marks := by
  unfold requestSetThreshold
  split <;> simp

@[simp] theorem marks_requestEnrol : (s.requestEnrol m).marks = s.marks := by simp [requestEnrol]

@[simp] theorem marks_requestWithdraw : (s.requestWithdraw m).marks = s.marks := by
  unfold requestWithdraw
  split <;> simp

@[simp] theorem marks_openWindowCursor (n : Nat) : (s.openWindowCursor m n).marks = s.marks := by
  unfold openWindowCursor
  split
  · split <;> simp
  · simp

@[simp] theorem marks_openStationCursor (n : StationNo) : (s.openStationCursor m n).marks = s.marks := by
  simp [openStationCursor]

@[simp] theorem marks_requestOpenCursor : (s.requestOpenCursor m).marks = s.marks := by
  unfold requestOpenCursor
  split
  · simp
  · split <;> simp
  · simp

@[simp] theorem marks_requestRelease : (s.requestRelease m).marks = s.marks := by
  unfold requestRelease
  split
  · simp
  · split
    · simp
    · split <;> simp

@[simp] theorem marks_requestStart : (s.requestStart m).marks = s.marks := by
  unfold requestStart
  split
  · simp
  · split
    · simp
    · split
      · simp
      · rw [marks_complete, marks_openWindow, marks_openWindow]
        rfl

@[simp] theorem marks_requestHalt : (s.requestHalt m).marks = s.marks := by
  unfold requestHalt
  split
  · rw [marks_complete]
    exact marks_flushAll s
  · simp

@[simp] theorem marks_requestSetParameter : (s.requestSetParameter m).marks = s.marks := by
  unfold requestSetParameter
  dsimp only
  split
  · simp
  · split
    · simp
    · split
      · simp
      · split
        · rw [marks_complete]
          rfl
        · simp

end Requests

end State

end Sys2Proof.Machine

/-! PROOFS. The operations that may change the discipline state, and with them every command (R14). -/

namespace Sys2Proof.Machine

/-- The changes of discipline state that there are (R14). -/
def disciplineChanges : List (Discipline × Discipline) :=
  [(.free, .armed), (.armed, .locked), (.armed, .free), (.locked, .holdover), (.holdover, .locked),
    (.holdover, .slewing), (.slewing, .locked), (.slewing, .holdover)]

/-- A SET TIME is in flight exactly in ARMED (R4 to R7). -/
abbrev State.FlightInArmed (s : State) : Prop :=
  s.timebase.inFlight.isSome = decide (s.timebase.discipline = .armed)

theorem State.flightInArmed_of_timingGood {s : State} (h : s.TimingGood) : s.FlightInArmed := by
  obtain ⟨-, ⟨-, -, -, -, -, -, -, -, -, -, hflight, -⟩, -⟩ := h
  exact hflight

/-- From s to t the discipline state stays, and TIMEBASE is raised at no slot. -/
def State.NotRaised (s t : State) : Prop :=
  t.timebase.discipline = s.timebase.discipline ∧ ∀ m : Slot, t.timebasePending m = true → s.timebasePending m = true

/-- From s to t nothing is raised and the discipline state stays, or one listed change has left TIMEBASE pending at every
slot (R14). -/
def State.Marked (s t : State) : Prop :=
  s.NotRaised t
    ∨ ((s.timebase.discipline, t.timebase.discipline) ∈ disciplineChanges ∧ ∀ m : Slot, t.timebasePending m = true)

namespace State

theorem NotRaised.of_marks {s t : State} (h : t.marks = s.marks) : s.NotRaised t :=
  ⟨discipline_of_marks h, fun m => by rw [timebasePending_of_marks h]; exact id⟩

/-- A change of one slot's context that does not raise TIMEBASE there. -/
theorem NotRaised.modCtx (s : State) (m : Slot) {f : Context → Context}
    (h : ∀ c : Context, (f c).attention.pending.getLsbD 2 = true → c.attention.pending.getLsbD 2 = true) :
    s.NotRaised (s.modCtx m f) := by
  refine ⟨rfl, fun k => ?_⟩
  unfold timebasePending
  by_cases hk : k = m
  · subst hk
    rw [ctx_modCtx_same]
    exact h _
  · rw [ctx_modCtx_of_ne hk]
    exact id

namespace Marked

variable {s t u : State}

theorem of_marks (h : t.marks = s.marks) : s.Marked t := .inl (.of_marks h)

theorem refl (s : State) : s.Marked s := of_marks rfl

/-- Operations that leave the marks may come after. -/
theorem then_marks (h : s.Marked t) (hu : u.marks = t.marks) : s.Marked u := by
  simpa only [Marked, NotRaised, discipline_of_marks hu, timebasePending_of_marks hu] using h

/-- Operations that leave the discipline state and raise no TIMEBASE may come before. -/
theorem after_notRaised (h : t.Marked u) (ht : s.NotRaised t) : s.Marked u := by
  obtain ⟨hd, hp⟩ := ht
  rcases h with ⟨hu, hq⟩ | ⟨hc, hq⟩
  · exact .inl ⟨hu.trans hd, fun m hm => hp m (hq m hm)⟩
  · exact .inr ⟨hd ▸ hc, hq⟩

theorem after_marks (h : t.Marked u) (ht : t.marks = s.marks) : s.Marked u := h.after_notRaised (.of_marks ht)

/-- A new Timebase in the same discipline state or in one that a listed change leads to (R14). -/
theorem withTimebase {x : Timebase}
    (h : x.discipline = s.timebase.discipline ∨ (s.timebase.discipline, x.discipline) ∈ disciplineChanges) :
    s.Marked (s.withTimebase x) := by
  by_cases he : x.discipline = s.timebase.discipline
  · rw [withTimebase_eq, if_pos he]
    exact of_marks (marks_setTimebase s he)
  · rw [withTimebase_eq, if_neg he]
    refine .inr ⟨h.resolve_left he, fun m => ?_⟩
    rw [timebasePending, ctx_raiseAll, Attention.getLsbD_raise _ _ (by decide)]
    simp [Cause.index]

/-- One listed change, by its two states. -/
theorem withTimebase_change {x : Timebase} {d e : Discipline} (h : (d, e) ∈ disciplineChanges)
    (hs : s.timebase.discipline = d) (hx : x.discipline = e) : s.Marked (s.withTimebase x) :=
  withTimebase (.inr (by rw [hs, hx]; exact h))

end Marked

end State

/-! ### The Timebase -/

namespace Timebase

variable (t : Timebase) (p : Params) (e : Int)

/-- A pulse taken in LOCKED leaves the Timebase LOCKED or in HOLDOVER (R8, R9). -/
theorem lockedPulse_discipline :
    (t.lockedPulse p e).discipline = t.discipline ∨ (t.lockedPulse p e).discipline = .holdover := by
  unfold lockedPulse
  split
  · exact .inl rfl
  · split
    · exact .inr rfl
    · exact .inl rfl

/-- A pulse taken in HOLDOVER leaves the state or enters LOCKED (R11). -/
theorem holdoverPulse_discipline :
    (t.holdoverPulse p e).discipline = t.discipline ∨ (t.holdoverPulse p e).discipline = .locked := by
  unfold holdoverPulse
  split
  · split
    · exact .inr rfl
    · exact .inl rfl
  · exact .inl rfl

/-- A pulse taken in SLEWING leaves the state or enters LOCKED (R13). -/
theorem slewingPulse_discipline :
    (t.slewingPulse p e).discipline = t.discipline ∨ (t.slewingPulse p e).discipline = .locked := by
  unfold slewingPulse
  split
  · exact .inr rfl
  · exact .inl rfl

/-- A missing pulse leaves the discipline state, or changes it by one of the listed changes (R10). -/
theorem missPulse_discipline :
    t.missPulse.discipline = t.discipline ∨ (t.discipline, t.missPulse.discipline) ∈ disciplineChanges := by
  unfold missPulse
  cases h : t.discipline <;> simp [h, disciplineChanges]

@[simp] theorem advanceFine_discipline : t.advanceFine.discipline = t.discipline := by
  unfold advanceFine
  dsimp only
  split <;> rfl

@[simp] theorem advanceSlew_discipline : t.advanceSlew.discipline = t.discipline := by
  unfold advanceSlew
  split <;> rfl

@[simp] theorem raiseEvents_discipline (before : Nat) : (t.raiseEvents p before).discipline = t.discipline := by
  unfold raiseEvents
  split <;> rfl

/-- A cycle of the oscillator leaves the discipline state (R1). -/
@[simp] theorem cycle_discipline : (t.cycle p).discipline = t.discipline := by simp [cycle]

end Timebase

namespace State

variable (s : State) (m : Slot)

@[simp] theorem marks_takeSlewEnd : s.takeSlewEnd.marks = s.marks := by
  unfold takeSlewEnd
  split
  · exact marks_setTimebase s rfl
  · rfl

@[simp] theorem marks_takeBoundary : s.takeBoundary.marks = s.marks := by
  unfold takeBoundary
  split
  · rw [marks_windowBoundary, marks_stationBoundary]
    exact marks_setTimebase s rfl
  · rfl

@[simp] theorem marks_takeExpiry : s.takeExpiry.marks = s.marks := by
  unfold takeExpiry
  split
  · rw [marks_endCheck]
    exact marks_setTimebase s rfl
  · rfl

@[simp] theorem marks_takeScan : s.takeScan.marks = s.marks := by
  unfold takeScan
  split
  · rw [marks_scanStations]
    exact marks_setTimebase s rfl
  · rfl

theorem armedPulse_marked (hd : s.timebase.discipline = .armed) : s.Marked s.armedPulse := by
  unfold armedPulse
  split
  next f _ =>
    have hset := Marked.withTimebase_change (by decide) hd (Timebase.setTime_discipline s.timebase f)
    exact hset.then_marks (by rw [marks_complete, marks_setArrivals])
  next => exact .refl s

/-- A pulse taken changes the discipline state from ARMED to LOCKED, or as the pulse of its state does (R5 to R13). -/
theorem takePulse_marked : s.Marked s.takePulse := by
  unfold takePulse
  dsimp only
  split
  next => exact .refl s
  next hd => exact armedPulse_marked s hd
  next hd =>
    exact .withTimebase ((Timebase.lockedPulse_discipline _ _ _).imp_right fun h => by rw [h, hd]; decide)
  next hd =>
    exact .withTimebase ((Timebase.holdoverPulse_discipline _ _ _).imp_right fun h => by rw [h, hd]; decide)
  next hd =>
    exact .withTimebase ((Timebase.slewingPulse_discipline _ _ _).imp_right fun h => by rw [h, hd]; decide)

theorem takeArmedExpiry_marked : s.Marked s.takeArmedExpiry := by
  unfold takeArmedExpiry
  split
  next f hd _ =>
    split
    · have hdisarm := Marked.withTimebase_change (by decide) hd (Timebase.disarm_discipline s.timebase)
      exact hdisarm.then_marks (by rw [marks_completeBare])
    · exact .refl s
  next => exact .refl s

theorem takeMissingPulse_marked : s.Marked s.takeMissingPulse := by
  unfold takeMissingPulse
  split
  · split
    · exact .withTimebase s.timebase.missPulse_discipline
    · exact .refl s
  · exact .refl s

/-- After the ARMED expiry was looked for in ARMED, network time is not valid (R6). -/
theorem takeArmedExpiry_not_valid (hd : s.timebase.discipline = .armed) :
    s.takeArmedExpiry.timebase.discipline.valid = false := by
  unfold takeArmedExpiry
  split
  · split
    · simp [Discipline.valid]
    · rw [hd]; rfl
  · rw [hd]; rfl

/-- Of the ARMED expiry and the missing pulse at most one finds something to do, so that of the events that wait at most
one changes the discipline state. -/
theorem takeArmedExpiry_takeMissingPulse_marked : s.Marked s.takeArmedExpiry.takeMissingPulse := by
  by_cases hd : s.timebase.discipline = .armed
  · have hv := takeArmedExpiry_not_valid s hd
    rw [takeMissingPulse_of_not fun h => by rw [hv] at h; cases h]
    exact takeArmedExpiry_marked s
  · rw [takeArmedExpiry_of_not fun h => absurd h hd]
    exact takeMissingPulse_marked s

theorem takeCycle_marked : s.Marked s.takeCycle := by
  have hdue : s.Marked s.takeDueEvents := by
    refine Marked.then_marks (t := s.takeSlewEnd.takeArmedExpiry.takeMissingPulse) ?_ (by simp [takeDueEvents])
    exact (takeArmedExpiry_takeMissingPulse_marked _).after_marks (marks_takeSlewEnd s)
  exact hdue.then_marks (marks_setTimebase _ (Timebase.cycle_discipline _ _))

/-! ### The requests that may change the discipline state -/

theorem requestSetTime_marked : s.Marked (s.requestSetTime m) := by
  unfold requestSetTime
  split
  · exact .of_marks (by simp)
  · exact .of_marks (by simp)
  · exact .of_marks (by simp)
  · exact .of_marks (by simp)
  next hd =>
    split
    · exact .of_marks (by simp)
    · exact (Marked.withTimebase_change (e := .armed) (by decide) hd rfl).then_marks (marks_modRequest _ m _)

theorem requestReacquire_marked : s.Marked (s.requestReacquire m) := by
  unfold requestReacquire
  split
  next hd =>
    exact (Marked.withTimebase_change (e := .slewing) (by decide) hd rfl).then_marks (marks_completeBare _ m _)
  · exact .of_marks (by simp)

variable {s}

/-- A SET TIME in flight is cancelled in ARMED, where alone there is one (R7). -/
theorem cancelSetTime_marked (h : s.FlightInArmed) : s.Marked (s.cancelSetTime m) := by
  unfold cancelSetTime
  split
  next hf =>
    have hd : s.timebase.discipline = .armed := by
      obtain ⟨f, hf, -⟩ := (Option.any_eq_true _ _).mp hf
      simpa [State.FlightInArmed, hf] using h
    exact .withTimebase_change (by decide) hd (Timebase.disarm_discipline s.timebase)
  next => exact .refl s

/-- Stations that leave service leave the Timebase (R42, R105). -/
theorem timebase_disableRange (s : State) (m : Slot) : (s.disableRange m).timebase = s.timebase :=
  List.foldlRecOn (motive := fun t : State => t.timebase = s.timebase) _ _ rfl fun t ht n _ =>
    (leaveService_step t n _).timebase.trans ht

/-- CONTEXT RESET first clears the flags of its slot, then cancels a SET TIME, which raises TIMEBASE at every slot
(R171, R172). -/
theorem resetContext_marked (h : s.FlightInArmed) : s.Marked (s.resetContext m) := by
  have hcleared : s.NotRaised (s.modCtx m Context.resetShares) :=
    .modCtx s m fun c => by simp [Context.resetShares, Context.reset, Attention.reset]
  have htime : (((s.modCtx m Context.resetShares).releaseAll m).1.disableRange m).timebase = s.timebase := by
    rw [timebase_disableRange, (releaseAll_step _ m).timebase, modCtx_timebase]
  have hcancel := cancelSetTime_marked
    (s := ((s.modCtx m Context.resetShares).releaseAll m).1.disableRange m) m (by rw [FlightInArmed, htime]; exact h)
  have hreset := (hcancel.after_marks (by rw [marks_disableRange, marks_releaseAll])).after_notRaised hcleared
  exact hreset.then_marks (marks_postResult ..)

/-- A request of any code (R158, R177). -/
theorem requestOf_marked (h : s.FlightInArmed) (v : Word) : s.Marked (s.requestOf m v) := by
  unfold requestOf
  split
  case h_1 => exact requestSetTime_marked s m
  case h_2 => exact requestReacquire_marked s m
  case h_18 => exact resetContext_marked m h
  all_goals exact .of_marks (by simp)

/-! ### Transactions and events -/

namespace Marked

variable {f : State → State} {m : Slot}

theorem onEvent (h : s.Marked (f s)) : s.Marked (s.onEvent f) := by
  unfold State.onEvent
  split
  · exact refl s
  · exact h

theorem onBus (h : s.Marked (f s)) : s.Marked (s.onBus f) := by
  unfold State.onBus
  split
  · exact of_marks (by simp)
  · exact h

theorem takeRequest {v : Word} (h : (s.noteCode m v).Marked (f (s.noteCode m v))) :
    s.Marked (s.takeRequest m v f) := by
  unfold State.takeRequest
  split
  · exact of_marks (by simp)
  · exact (h.after_marks (marks_noteCode s m v)).then_marks (marks_answer ..)

theorem onRequest {code : Word} (h : (s.noteCode m code).Marked (f (s.noteCode m code))) :
    s.Marked (s.onRequest m code f) := onBus (f := fun s => s.takeRequest m code f) (takeRequest h)

end Marked

theorem writeCode_marked (h : s.FlightInArmed) (v : Word) :
    s.Marked (s.writeCode m v) :=
  .takeRequest (requestOf_marked (s := s.noteCode m v) m h v)

/-- A write to the flags word raises nothing (R143). -/
theorem writeFlags_notRaised (s : State) (m : Slot) (v : Word) : s.NotRaised (s.writeFlags m v) :=
  .modCtx s m fun c => by
    rw [Attention.getLsbD_clearOnes _ _ (by decide), Bool.and_eq_true]
    exact And.left

/-- A poll raises nothing (R144). -/
theorem polled_notRaised (s : State) (m : Slot) : s.NotRaised (s.modAttention m Attention.polled) :=
  .modCtx s m fun c => by
    cases hr : c.attention.reported with
    | none => simp [Attention.polled, hr]
    | some cause =>
      rw [Attention.polled_of_reported _ hr]
      split
      · exact id
      · rw [Attention.getLsbD_clear _ _ (by decide), Bool.and_eq_true]
        exact And.left

@[simp] theorem marks_writeEnables (s : State) (m : Slot) (v : Word) : (s.writeEnables m v).marks = s.marks :=
  marks_modAttention s m fun _ => rfl

@[simp] theorem marks_recordBusError (s : State) (kind : ParityKind) (address : WordAddress) (m : Slot)
    (d : Direction) : (s.recordBusError kind address m d).marks = s.marks := rfl

theorem marks_clearBusError (s : State) : ({ s with busError := none } : State).marks = s.marks := rfl

@[simp] theorem marks_checkAddress (s : State) (address : WordAddress) (m : Slot) (d : Direction) (parity : Bool) :
    (s.checkAddress address m d parity).marks = s.marks := by
  rcases checkAddress_cases s address m d parity with ⟨-, h⟩ | ⟨-, -, h⟩ | ⟨-, -, h⟩ <;> rw [h] <;> simp

/-- A write to any word of the window (Table 11-12). -/
theorem writeWord_marked (h : s.FlightInArmed) (offset : Nat) (v : Word) :
    s.Marked (s.writeWord offset m v) := by
  unfold writeWord
  split_ifs
  · exact .of_marks (marks_clearBusError s)
  · exact .of_marks (by simp [storeStaging])
  · exact .of_marks (by simp)
  · exact writeCode_marked m h v
  · exact .of_marks (by simp [storeArg])
  · exact (resetContext_marked m h).then_marks (marks_answer ..)
  · exact .of_marks (by simp [clearOverflow])
  · exact .of_marks (by simp)
  · exact Marked.then_marks (.inl (writeFlags_notRaised s m v)) (marks_answer ..)
  · exact .of_marks (by simp)
  · exact .of_marks (by simp)

theorem writeTransaction_marked (h : s.FlightInArmed) (address : WordAddress) (v : Word) (lanes : BitVec 4) :
    s.Marked (s.writeTransaction address m v lanes) := by
  unfold writeTransaction
  split
  · split
    · exact writeWord_marked m h _ v
    · exact .of_marks (by simp)
  · exact .of_marks (by simp)

@[simp] theorem marks_setResetLine (s : State) (line : ResetLine) (asserted : Bool) :
    (s.setResetLine line asserted).marks = s.marks := by
  cases line <;> rfl

/-- Every command but a full reset leaves the discipline state and raises no TIMEBASE, or makes one listed change and
leaves TIMEBASE pending at every slot (R14). -/
theorem exec_marked {c : Instr} {t : State} (h : s.FlightInArmed) (hc : isFullReset c = false)
    (hnext : exec c s = .next t) : s.Marked t := by
  cases c with
  | oscillatorCycle => cases hnext; exact .onEvent (takeCycle_marked s)
  | refPulse edge =>
    cases hnext
    refine .onEvent ?_
    split
    · exact takePulse_marked s
    · exact .refl s
  | armedExpiry => cases hnext; exact .onEvent (takeArmedExpiry_marked s)
  | missingPulseEvent => cases hnext; exact .onEvent (takeMissingPulse_marked s)
  | slewRemainderEnd | boundaryEvent | expiryEvent | scanEvent | recordTaking =>
    cases hnext
    exact .onEvent (.of_marks (by simp))
  | capturePulse m edge =>
    cases hnext
    refine .onEvent (.of_marks ?_)
    split <;> simp
  | fullReset line => cases hc
  | fullResetEnd line straps =>
    cases hnext
    refine .of_marks ?_
    split
    · exact marks_setResetLine s line false
    · exact marks_setResetLine s line false
  | addressParityError address m direction => cases hnext; exact .onBus (.of_marks (by simp))
  | registerWrite address m value lanes => cases hnext; exact .onBus (writeTransaction_marked m h address value lanes)
  | busErrorClear m value => cases hnext; exact .onBus (.of_marks (marks_clearBusError s))
  | flagsWordWrite m value =>
    cases hnext
    exact .onBus (Marked.then_marks (.inl (writeFlags_notRaised s m value)) (marks_answer ..))
  | pollRead m =>
    cases hnext
    exact .onBus (Marked.then_marks (.inl (polled_notRaised s m)) (marks_answerRead _))
  | commit m value | noticePop m | overflowClear m value | cursorRead m | cursorPositionWrite m value
  | enableMaskWrite m value =>
    cases hnext
    exact .onBus (.of_marks (by simp [clearOverflow]))
  | setTime m => cases hnext; exact .onRequest (requestSetTime_marked _ m)
  | reacquire m => cases hnext; exact .onRequest (requestReacquire_marked _ m)
  | readTime m | setRange m | enableStation m | disableStation m | configureStation m | clearCounters m | intakeReset m
  | setThreshold m | enrol m | withdraw m | openCursor m | release m | start m | halt m | setParameter m =>
    cases hnext
    exact .onRequest (.of_marks (by simp))
  | contextReset m way =>
    cases way with
    | codeWord => cases hnext; exact .onRequest (resetContext_marked m h)
    | resetWord value => cases hnext; exact .onBus ((resetContext_marked m h).then_marks (marks_answer ..))
  | unknownRequestCode m value | requestSlotRetry m value => cases hnext; exact .onBus (writeCode_marked m h value)

end State

/-- A listed change is a change. -/
theorem ne_of_mem_disciplineChanges {d e : Discipline} (h : (d, e) ∈ disciplineChanges) : e ≠ d := by
  revert h
  cases d <;> cases e <;> decide

/-- Settles O12: what every command does to the marks. -/
theorem timebaseCauseMarksEveryChange : Obligations.TimebaseCauseMarksEveryChange := by
  intro c s t hgood hc hnext
  rcases State.exec_marked (State.flightInArmed_of_timingGood hgood) hc hnext with ⟨hd, hp⟩ | ⟨hchange, hp⟩
  · exact ⟨fun hne => absurd hd hne, fun _ => hp⟩
  · exact ⟨fun _ => ⟨hchange, hp⟩, fun he => absurd he (ne_of_mem_disciplineChanges hchange)⟩

end Sys2Proof.Machine

/-! PROOFS. The owner requests of the Station Table (R26) and CONFIGURE STATION (R29 to R31). -/

namespace Sys2Proof.Machine

/-! ### An owner request taken from the code word (R26) -/

namespace State

variable {s : State} {m : Slot} {n : StationNo} {code : Word} {act : State → StationNo → State}

/-- No station has a number above 127. -/
theorem onRequest_ownerRequest_of_not_station (h : s.Ready m) (hn : 127 < (s.arg m 0).toNat) :
    s.onRequest m code (fun t => t.ownerRequest m (act t))
      = s.answered m (BitVec.ofNat 8 code.toNat) .badArg Values.zero := by
  have hnoted : 127 < (s.noteCode m code).argNat m 0 := by rwa [argNat_noteCode]
  rw [onRequest_of_ready h, ownerRequest_of_not_station hnoted, answer_completeBare_noteCode]

/-- The caller does not own the station. -/
theorem onRequest_ownerRequest_of_not_owner (h : s.Ready m) (hn : (s.arg m 0).toNat = n.val)
    (ho : s.owns m n = false) :
    s.onRequest m code (fun t => t.ownerRequest m (act t))
      = s.answered m (BitVec.ofNat 8 code.toNat) .notOwner Values.zero := by
  have hnoted : (s.noteCode m code).argNat m 0 = n.val := by rwa [argNat_noteCode]
  rw [onRequest_of_ready h, ownerRequest_of_not_owner hnoted (by rwa [owns_noteCode]), answer_completeBare_noteCode]

end State

/-- The four owner requests as commands of slot m, each by its code (R26, Table 11-3). -/
def ownerRequestsOf (m : Slot) : List (BitVec 8 × Instr) :=
  [(5, .enableStation m), (6, .disableStation m), (7, .configureStation m), (8, .clearCounters m)]

/-- Each of the four makes R26's checks first, whatever it then does with its station. -/
theorem exec_of_mem_ownerRequestsOf {m : Slot} {p : BitVec 8 × Instr} (hp : p ∈ ownerRequestsOf m) :
    ∃ (code : Word) (act : State → StationNo → State), BitVec.ofNat 8 code.toNat = p.1 ∧
      ∀ s : State, exec p.2 s = .next (s.onRequest m code fun t => t.ownerRequest m (act t)) := by
  simp only [ownerRequestsOf, List.mem_cons, List.not_mem_nil, or_false] at hp
  rcases hp with rfl | rfl | rfl | rfl
  · exact ⟨5, _, rfl, fun _ => rfl⟩
  · exact ⟨6, _, rfl, fun _ => rfl⟩
  · exact ⟨7, _, rfl, fun _ => rfl⟩
  · exact ⟨8, _, rfl, fun _ => rfl⟩

/-- Settles O20: the checks are those of `State.ownerRequest`, made before the request's own action. -/
theorem ownerRequestsCheckTheOwner : Obligations.OwnerRequestsCheckTheOwner := by
  intro s m hready p hp
  obtain ⟨code, act, hcode, hexec⟩ := exec_of_mem_ownerRequestsOf hp
  rw [hexec, ← hcode]
  exact ⟨fun hn => congrArg _ (State.onRequest_ownerRequest_of_not_station hready hn),
    fun n hn ho => congrArg _ (State.onRequest_ownerRequest_of_not_owner hready hn ho)⟩

/-! ### The values that CONFIGURE STATION asks for (R29) -/

@[simp] theorem modeOf_code (mode : Mode) : modeOf mode.code = some mode := by
  cases mode <;> rfl

theorem modeOf_eq_none {k : Nat} (h : 2 < k) : modeOf k = none := by
  unfold modeOf
  split
  case h_4 => rfl
  all_goals omega

namespace State

variable {s : State} {m : Slot}

/-- A value of CONFIGURE STATION lies outside its range (R29, Tables 2-2 and 11-4). -/
def ConfigOutside (s : State) (m : Slot) : Prop :=
  2 < (s.arg m 1).toNat ∨ 9 < (s.arg m 2).toNat ∨ (s.arg m 3).toInt < -500000 ∨ 500000 < (s.arg m 3).toInt
    ∨ 10000000 < (s.arg m 4).toNat ∨ 16777215 < (s.arg m 5).toNat

@[simp] theorem askedConfig_noteCode (s : State) (m : Slot) (v : Word) :
    (s.noteCode m v).askedConfig m = s.askedConfig m := by
  simp [askedConfig]

/-- Values outside their ranges ask for no configuration, whatever the mode (R29). -/
theorem askedConfig_of_outside (h : s.ConfigOutside m) : s.askedConfig m = none := by
  unfold askedConfig
  split
  next => rfl
  next mode hmode =>
    have hle : (s.arg m 1).toNat ≤ 2 := by
      by_contra hgt
      rw [argNat, modeOf_eq_none (by omega)] at hmode
      cases hmode
    rw [ConfigOutside] at h
    exact if_neg (by rw [argNat, argInt, argNat, argNat]; omega)

/-- Values in their ranges ask for the configuration they give (R29). -/
theorem askedConfig_of_inside (h : ¬s.ConfigOutside m) {mode : Mode} (hmode : (s.arg m 1).toNat = mode.code) :
    s.askedConfig m =
      some ⟨mode, (s.arg m 2).toNat, (s.arg m 3).toInt, (s.arg m 4).toNat, (s.arg m 5).toNat⟩ := by
  rw [ConfigOutside] at h
  have hnamed : modeOf (s.argNat m 1) = some mode := by rw [argNat, hmode, modeOf_code]
  simp only [askedConfig, hnamed]
  exact if_pos (by rw [argNat, argInt, argNat, argNat]; omega)

end State

/-! ### Applying a configuration (R31) -/

theorem StationState.inService_iff {st : StationState} : st.inService = true ↔ st = .tracking ∨ st = .acquiring := by
  cases st <;> decide

namespace Station

variable {r : Station} {c : StationConfig}

theorem applyConfig_of_sameMode (h : c.mode = r.config.mode) :
    r.applyConfig c = { r with config := c, pendingConfig := none } := if_pos h

theorem applyConfig_of_newMode (h : c.mode ≠ r.config.mode) :
    r.applyConfig c = { r with
      config := c, pendingConfig := none, active := none, staged := none, anchor := none, history := [], horizon := none
      state :=
        if r.state = .tracking ∨ r.state = .acquiring then (if c.mode = .probed then .acquiring else .tracking)
        else r.state } := by
  simp only [applyConfig, if_neg h, StationState.inService_iff]

end Station

/-! ### CONFIGURE STATION of the caller's station (R29, R30) -/

namespace State

section Request

variable {s : State} {m : Slot} {n : StationNo} {c : StationConfig} (hn : s.argNat m 0 = n.val) (ho : s.owns m n = true)
include hn ho

theorem requestConfigureStation_of_outside (hc : s.askedConfig m = none) :
    s.requestConfigureStation m = s.completeBare m .badArg := by
  rw [requestConfigureStation, ownerRequest_of_owner hn ho, hc]

/-- An enabled station in RUN has the configuration staged (R30). -/
theorem requestConfigureStation_of_staged (hc : s.askedConfig m = some c) (hs : (s.station n).state ≠ .disabled)
    (hp : s.part = .run) :
    s.requestConfigureStation m =
      (s.modStation n fun r => { r with pendingConfig := some c }).complete m .ok ⟨2, 0, 0⟩ := by
  rw [requestConfigureStation, ownerRequest_of_owner hn ho, hc]
  exact if_pos ⟨hs, hp⟩

/-- A DISABLED station, or any station in SETUP, has the configuration applied at once (R30). -/
theorem requestConfigureStation_of_applied (hc : s.askedConfig m = some c)
    (hs : (s.station n).state = .disabled ∨ s.part = .setup) :
    s.requestConfigureStation m = (s.modStation n fun r => r.applyConfig c).complete m .ok ⟨1, 0, 0⟩ := by
  rw [requestConfigureStation, ownerRequest_of_owner hn ho, hc]
  refine if_neg ?_
  rintro ⟨henabled, hrun⟩
  simp [henabled, hrun] at hs

end Request

/-- CONFIGURE STATION taken as a request in a state that is ready for it (R158). -/
theorem exec_configureStation {s : State} {m : Slot} (h : s.Ready m) :
    exec (.configureStation m) s = .next (((s.noteCode m 7).requestConfigureStation m).answer .ok none) :=
  congrArg Host.Outcome.next (onRequest_of_ready h 7 _)

/-- A request that changes one station and completes, with its code noted (R158, R159). -/
theorem answer_modStation_noteCode (s : State) (m : Slot) (v : Word) (n : StationNo) (f : Station → Station)
    (st : Status) (vals : Values) :
    (((s.noteCode m v).modStation n f).complete m st vals).answer .ok none
      = (s.modStation n f).answered m (BitVec.ofNat 8 v.toNat) st vals := by
  rw [modStation_noteCode, answer_complete_noteCode]

end State

/-- Settles O23: the configuration asked for decides between BAD_ARG and the rest, the station's state and the part's
between staging and applying, and the two modes what applying discards. -/
theorem configureStationStagesOrApplies : Obligations.ConfigureStationStagesOrApplies := by
  intro s m n hready hn ho outside r
  have hn' : (s.noteCode m 7).argNat m 0 = n.val := by rwa [State.argNat_noteCode]
  have ho' : (s.noteCode m 7).owns m n = true := by rwa [State.owns_noteCode]
  rw [State.exec_configureStation hready]
  refine ⟨fun hout => ?_, fun hin mode hmode => ?_⟩
  · have hc : (s.noteCode m 7).askedConfig m = none := by
      rw [State.askedConfig_noteCode, State.askedConfig_of_outside hout]
    rw [State.requestConfigureStation_of_outside hn' ho' hc, State.answer_completeBare_noteCode]
    rfl
  · have hc := (State.askedConfig_noteCode s m 7).trans (State.askedConfig_of_inside hin hmode)
    refine ⟨fun hs hp => ?_, fun hs hsame => ?_, fun hs hnew => ?_⟩
    · rw [State.requestConfigureStation_of_staged hn' ho' hc hs hp, State.answer_modStation_noteCode]
      rfl
    · rw [State.requestConfigureStation_of_applied hn' ho' hc hs, State.answer_modStation_noteCode, State.modStation,
        Station.applyConfig_of_sameMode hsame]
      rfl
    · rw [State.requestConfigureStation_of_applied hn' ho' hc hs, State.answer_modStation_noteCode, State.modStation,
        Station.applyConfig_of_newMode hnew]
      rfl

end Sys2Proof.Machine

/-! PROOFS. The selected entry of a history (R54), the declared step (R51, R52) and the first model (R55). -/

namespace Sys2Proof.Machine

/-! ### The selected entry (R54) -/

/-- Entry e stands in h after `older` and before `newer`, with the least delay and as the newest that has it (R54). -/
def SelectedAt (h older newer : List HistoryEntry) (e : HistoryEntry) : Prop :=
  h = older ++ e :: newer ∧ (∀ x ∈ older, e.delay ≤ x.delay) ∧ ∀ x ∈ newer, e.delay < x.delay

theorem selectEntry_singleton (e : HistoryEntry) : selectEntry [e] = some e := rfl

theorem selectEntry_cons_of_lt {e b : HistoryEntry} {t : List HistoryEntry} (ht : selectEntry t = some b)
    (h : e.delay < b.delay) : selectEntry (e :: t) = some e := by
  rw [selectEntry, ht]
  exact if_pos h

theorem selectEntry_cons_of_le {e b : HistoryEntry} {t : List HistoryEntry} (ht : selectEntry t = some b)
    (h : b.delay ≤ e.delay) : selectEntry (e :: t) = some b := by
  rw [selectEntry, ht]
  exact if_neg h.not_gt

namespace SelectedAt

variable {h older newer : List HistoryEntry} {e x : HistoryEntry}

theorem le_delay (hs : SelectedAt h older newer e) (hx : x ∈ h) : e.delay ≤ x.delay := by
  obtain ⟨rfl, holder, hnewer⟩ := hs
  rcases List.mem_append.mp hx with hx | hx
  · exact holder x hx
  · rcases List.mem_cons.mp hx with rfl | hx
    · exact le_rfl
    · exact (hnewer x hx).le

/-- An older entry of less delay takes the selection over. -/
theorem cons_of_lt (hs : SelectedAt h older newer e) (hlt : x.delay < e.delay) : SelectedAt (x :: h) [] h x :=
  ⟨rfl, by simp, fun _ hy => hlt.trans_le (hs.le_delay hy)⟩

/-- An older entry of no less delay leaves the selection where it was. -/
theorem cons_of_le (hs : SelectedAt h older newer e) (hle : e.delay ≤ x.delay) :
    SelectedAt (x :: h) (x :: older) newer e := by
  obtain ⟨rfl, holder, hnewer⟩ := hs
  exact ⟨rfl, List.forall_mem_cons.mpr ⟨hle, holder⟩, hnewer⟩

end SelectedAt

/-- From the newest entry back: each older entry takes the selection over exactly when its delay is less. -/
theorem exists_selectedAt_selectEntry (e : HistoryEntry) (t : List HistoryEntry) :
    ∃ older newer b, SelectedAt (e :: t) older newer b ∧ selectEntry (e :: t) = some b := by
  induction t generalizing e with
  | nil => exact ⟨[], [], e, ⟨rfl, by simp, by simp⟩, selectEntry_singleton e⟩
  | cons e' t ih =>
    obtain ⟨older, newer, b, hs, ht⟩ := ih e'
    rcases lt_or_ge e.delay b.delay with hlt | hle
    · exact ⟨_, _, e, hs.cons_of_lt hlt, selectEntry_cons_of_lt ht hlt⟩
    · exact ⟨_, _, b, hs.cons_of_le hle, selectEntry_cons_of_le ht hle⟩

/-- Settles O30, by induction on the history from its oldest entry. -/
theorem selectedEntryIsTheNewestOfLeastDelay : Obligations.SelectedEntryIsTheNewestOfLeastDelay := by
  intro h hne
  obtain ⟨e, t, rfl⟩ := List.exists_cons_of_ne_nil hne
  obtain ⟨older, newer, b, ⟨hsplit, holder, hnewer⟩, hsel⟩ := exists_selectedAt_selectEntry e t
  exact ⟨older, newer, b, hsplit, hsel, holder, hnewer⟩

/-! ### The processing of an accepted probe, by its outcome (R50 to R55) -/

theorem ActiveModel.stepped_iff (a : ActiveModel) (p : Probe) (limit : Nat) :
    a.stepped p limit = true ↔ 2 * limit < (p.offset - a.predict p.t2).natAbs :=
  decide_eq_true_iff

namespace Station

variable {r : Station} {p : Probe} {params : Params} {part : PartState}

/-- The accepted probe counted, before anything else is done with it (R50). -/
def countProbe (r : Station) : Station :=
  r.modCounters fun c => { c with probesAccepted := raise16 c.probesAccepted }

/-- A probe beyond the step limit is counted and restarts the clock at once (R51, R52). -/
theorem processProbe_of_stepped {a : ActiveModel} (ha : r.active = some a)
    (hstep : a.stepped p params.stepLimit = true) :
    r.processProbe p params part = r.countProbe.applyStep a p := by
  have hcount : r.countProbe.active = some a := ha
  rw [countProbe] at hcount
  simp only [processProbe, hcount, hstep, if_true]
  rfl

/-- Without an active model no step is tested for: the probe enters the history (R50). -/
theorem processProbe_of_noModel (ha : r.active = none) :
    r.processProbe p params part = (r.countProbe.selectModel p params part).raiseHorizon p.t3 := by
  have hcount : r.countProbe.active = none := ha
  rw [countProbe] at hcount
  simp only [processProbe, hcount]
  rfl

/-- The first probe of a station without model and history is its whole history, and so its first model (R53 to R55). -/
theorem selectModel_of_first (ha : r.active = none) (hh : r.history = []) :
    r.selectModel p params part = { r with
      history := [⟨p.t2, p.offset, p.delay⟩]
      active := some ⟨p.offset, 0, p.t2, p.delay, 1, false⟩
      anchor := some ⟨p.t2, p.offset⟩ } := by
  have hentered : addHistory r.history p = [⟨p.t2, p.offset, p.delay⟩] := by rw [hh]; rfl
  simp only [selectModel, hentered, selectEntry_singleton, ha]

/-- An absent horizon counts as 0 when it is raised (R39). -/
theorem raiseHorizon_eq (r : Station) (v : Nat) :
    r.raiseHorizon v = { r with horizon := some (max (r.horizon.getD 0) v) } := by
  rw [← raiseHorizon_horizon]
  rfl

end Station

/-- Settles O31: the two outcomes of `Station.processProbe` under their tests. -/
theorem clockStepAndFirstModel : Obligations.ClockStepAndFirstModel := by
  intro r p params part entry probes
  refine ⟨fun a ha hfar => ?_, fun ha hh => ?_⟩
  · exact Station.processProbe_of_stepped ha ((a.stepped_iff p _).mpr hfar)
  · rw [Station.processProbe_of_noModel ha, Station.selectModel_of_first (r := r.countProbe) ha hh,
      Station.raiseHorizon_eq]
    rfl

end Sys2Proof.Machine

/-! PROOFS. The words of a manifest (R131, Tables 11-9 and 11-10) and the cursor data port (R132, R133). -/

namespace Sys2Proof.Machine

/-! ### Fields of a word -/

/-- Fields put side by side are one number's word: the `|||` of a table's row can be taken before the cut to 32 bits. -/
theorem atBit_or_atBit (a b i j : Nat) : atBit a i ||| atBit b j = atBit (a <<< i ||| b <<< j) 0 :=
  (BitVec.ofNat_or ..).symm

/-- The three bits that Table 11-10 takes of a deviation's higher part are its residue modulo 8, negative values too. -/
theorem field_hiWordInt (z : Int) : field (hiWordInt z) 0 3 = ((z / 2 ^ 32) % 8).toNat := by
  simp only [field, hiWordInt, BitVec.toNat_ofInt, Nat.shiftRight_zero]
  omega

/-! ### The header (Table 11-9) -/

namespace Window

variable (w : Window)

theorem headerWord_one {reason : CloseReason} (h : w.closed = some reason) :
    w.headerWord 1 = BitVec.ofNat 32 (w.number / 2 ^ 32 ||| reason.code <<< 8 ||| w.fragments.length <<< 16) := by
  simp only [headerWord, h, atBit_or_atBit, Nat.shiftRight_eq_div_pow, Nat.shiftLeft_zero]
  rfl

theorem headerWord_two :
    w.headerWord 2 = BitVec.ofNat 32 (w.expected.length ||| w.covered.length <<< 16) :=
  atBit_or_atBit ..

theorem headerWord_expected {j : Nat} (hj : j < 4) : w.headerWord (3 + j) = setWord w.expected j := by
  interval_cases j <;> rfl

theorem headerWord_covered {j : Nat} (hj : j < 4) : w.headerWord (7 + j) = setWord w.covered j := by
  interval_cases j <;> rfl

end Window

/-! ### A fragment's six words (Table 11-10) -/

namespace Fragment

variable (f : Fragment) (start : Nat)

theorem word_zero :
    f.word start 0 =
      BitVec.ofNat 32 (f.station.val ||| f.source.val <<< 7 ||| f.loose.toNat <<< 9 ||| f.overlap.toNat <<< 10
        ||| f.acquiring.toNat <<< 11 ||| f.hubHoldover.toNat <<< 12 ||| f.satUnlocked.toNat <<< 13
        ||| f.satStale.toNat <<< 14 ||| f.arrival.toNat <<< 15 ||| f.firstIndex <<< 16) := by
  simp only [word, flagBit, atBit_or_atBit, Nat.shiftLeft_zero]
  rfl

theorem word_two :
    f.word start 2 =
      BitVec.ofNat 32 (f.sequence ||| f.count <<< 16 ||| ((f.deviation / 2 ^ 32) % 8).toNat <<< 26) := by
  simp only [word, field_hiWordInt, atBit_or_atBit, Nat.shiftLeft_zero]
  rfl

theorem word_three : f.word start 3 = BitVec.ofNat 32 (f.firstTime - start) := rfl

theorem word_four : f.word start 4 = BitVec.ofNat 32 (f.uncertainty ||| f.revision <<< 24) :=
  atBit_or_atBit ..

end Fragment

/-! ### The manifest (R131) -/

namespace Window

variable {w : Window}

theorem manifestWord_of_header (p : Params) {k : Nat} (hk : k < 11) : w.manifestWord p k = w.headerWord k :=
  if_pos hk

/-- After the header each fragment has the six words that follow those of the fragments before it. -/
theorem manifestWord_of_fragment {before after : List Fragment} {f : Fragment}
    (hw : w.fragments = before ++ f :: after) (p : Params) {i : Nat} (hi : i < 6) :
    w.manifestWord p (11 + 6 * before.length + i) = f.word (p.windowStart w.number) i := by
  have hquot : (11 + 6 * before.length + i - 11) / 6 = before.length := by omega
  have hrest : (11 + 6 * before.length + i - 11) % 6 = i := by omega
  have hfound : w.fragments[before.length]? = some f := by simp [hw]
  rw [manifestWord, if_neg (by omega), hquot, hrest, hfound]

/-- The two sets of the manifest, four words each (Table 11-9). -/
theorem manifestWord_sets (w : Window) (p : Params) {j i : Nat} (hj : j < 4) (hi : i < 32) :
    ((w.manifestWord p (3 + j)).getLsbD i = true ↔ ∃ n ∈ w.expected, n.val = 32 * j + i)
      ∧ ((w.manifestWord p (7 + j)).getLsbD i = true ↔ ∃ n ∈ w.covered, n.val = 32 * j + i) := by
  rw [manifestWord_of_header p (by omega), manifestWord_of_header p (by omega), headerWord_expected w hj,
    headerWord_covered w hj]
  exact ⟨setWord_getLsbD _ j i hi, setWord_getLsbD _ j i hi⟩

end Window

/-! ### The cursor data port -/

/-- A transaction while no reset line is asserted is taken (R163). -/
theorem onBus_of_not_inReset {s : State} (h : s.inReset = false) (f : State → State) : s.onBus f = f s := by
  simp [State.onBus, h]

namespace State

section Port

variable {s : State} {m : Slot}

/-- The cursor of a slot set to a position of a target of a length: what the port changes (R132, R133). -/
def placeCursor (s : State) (m : Slot) (pos length : Nat) : State :=
  s.setCursor m ((s.ctx m).reader.cursor.moveTo pos length)

theorem readCursor_of_ended
    (hc : (s.ctx m).reader.cursor.condition = .none ∨ (s.ctx m).reader.cursor.condition = .atEnd) :
    s.readCursor m = (s, endMarker) := by
  rcases hc with hc | hc <;> simp only [readCursor, hc]

theorem readCursor_of_gone (hc : (s.ctx m).reader.cursor.condition = .gone) :
    s.readCursor m = (s, reclaimedMarker) := by
  simp only [readCursor, hc]

theorem readCursor_of_reading (hc : (s.ctx m).reader.cursor.condition = .reading) {len : Nat}
    (hlen : s.targetLength (s.ctx m).reader.cursor.target = some len) :
    s.readCursor m =
      (s.placeCursor m ((s.ctx m).reader.cursor.position + 1) len, s.targetWord (s.ctx m).reader.cursor) := by
  simp only [readCursor, hc, hlen]
  rfl

theorem moveCursor_of_ignored
    (hc : (s.ctx m).reader.cursor.condition = .none ∨ (s.ctx m).reader.cursor.condition = .gone) (v : Nat) :
    s.moveCursor m v = s := by
  rcases hc with hc | hc <;> simp only [moveCursor, hc]

theorem moveCursor_of_placed
    (hc : (s.ctx m).reader.cursor.condition = .reading ∨ (s.ctx m).reader.cursor.condition = .atEnd) {len : Nat}
    (hlen : s.targetLength (s.ctx m).reader.cursor.target = some len) (v : Nat) :
    s.moveCursor m v = s.placeCursor m v len := by
  rcases hc with hc | hc <;> simp only [moveCursor, hc, hlen] <;> rfl

theorem exec_cursorRead (h : s.inReset = false) : exec (.cursorRead m) s = .next (answerRead (s.readCursor m)) :=
  congrArg Host.Outcome.next (onBus_of_not_inReset h _)

theorem exec_cursorPositionWrite (h : s.inReset = false) (v : Word) :
    exec (.cursorPositionWrite m v) s = .next ((s.moveCursor m v.toNat).answer .ok none) :=
  congrArg Host.Outcome.next (onBus_of_not_inReset h _)

end Port

/-! ### What a cursor stands on -/

section Target

variable {s : State} {c : Cursor}

theorem targetLength_window {n : Nat} {w : Window} (hw : s.findWindow n = some w) :
    s.targetLength (.window n) = some (11 + 6 * w.fragments.length) := by
  rw [targetLength, hw]
  rfl

theorem targetWord_window {n : Nat} {w : Window} (ht : c.target = .window n) (hw : s.findWindow n = some w) :
    s.targetWord c = w.manifestWord s.params c.position := by
  simp only [targetWord, ht, hw]

theorem targetWord_station {n : StationNo} (ht : c.target = .station n) (h : c.position < 16) :
    s.targetWord c = c.snapshot[c.position] := by
  simp [targetWord, ht, h]

end Target

end State

/-- Settles O50: the manifest's words by their positions, then the port by the cursor's condition and its target. -/
theorem cursorPortReadAndWrite : Obligations.CursorPortReadAndWrite := by
  refine ⟨fun w p reason hclosed => ⟨rfl, w.headerWord_one hclosed, w.headerWord_two,
    fun j i hj hi => w.manifestWord_sets p hj hi, fun before after f hw => ?_⟩, fun s m hbus => ?_⟩
  · have hword {i : Nat} (hi : i < 6) := Window.manifestWord_of_fragment hw p hi
    exact ⟨(hword (i := 0) (by decide)).trans (f.word_zero _), hword (by decide),
      (hword (by decide)).trans (f.word_two _), (hword (by decide)).trans (f.word_three _),
      (hword (by decide)).trans (f.word_four _), hword (by decide)⟩
  · simp only [State.exec_cursorRead hbus, State.exec_cursorPositionWrite hbus, List.mem_cons, List.not_mem_nil,
      or_false]
    refine ⟨fun hc => ?ended, fun hc => ?gone, fun v hc => ?ignored, fun n w ht hw => ?window, fun n ht => ?station⟩
    case ended => rw [State.readCursor_of_ended hc]; rfl
    case gone => rw [State.readCursor_of_gone hc]; rfl
    case ignored => rw [State.moveCursor_of_ignored hc]; rfl
    case window =>
      have hlen : s.targetLength (s.ctx m).reader.cursor.target = some (11 + 6 * w.fragments.length) := by
        rw [ht, State.targetLength_window hw]
      refine ⟨fun hc => ?_, fun v hc => ?_⟩
      · rw [State.readCursor_of_reading hc hlen, State.targetWord_window ht hw]; rfl
      · rw [State.moveCursor_of_placed hc hlen]; rfl
    case station =>
      have hlen : s.targetLength (s.ctx m).reader.cursor.target = some 16 := by rw [ht]; rfl
      refine ⟨fun h hc => ?_, fun v hc => ?_⟩
      · rw [State.readCursor_of_reading hc hlen, State.targetWord_station ht h]; rfl
      · rw [State.moveCursor_of_placed hc hlen]; rfl

end Sys2Proof.Machine

/-! PROOFS. The step, the oscillator cycle and the events of network time (R1, R3, R6, R10, R13, R18 to R20; log 1, 4, 5). -/

namespace Sys2Proof.Machine

/-- An event while no reset line is asserted is taken (R173). -/
theorem onEvent_of_not_inReset {s : State} (h : s.inReset = false) (f : State → State) : s.onEvent f = f s := by
  simp [State.onEvent, h]

/-! ### The step -/

/-- Settles O1: both clauses are the two branches of `step`. -/
theorem stepRunsTheFrontCommand : Obligations.StepRunsTheFrontCommand :=
  ⟨fun _ _ _ => rfl, fun s h => by rw [step, h]⟩

/-! ### Events that find nothing to do -/

namespace State

variable {s : State}

/-- The end of a slew takes away what is left of P and of the remainder, if anything is (R13). -/
theorem takeSlewEnd_of_not
    (h : s.timebase.slewEnded = true → s.timebase.phasePart = 0 ∧ s.timebase.slewRemainder = 0) : s.takeSlewEnd = s := by
  unfold takeSlewEnd
  split
  next hended =>
    obtain ⟨hphase, hrest⟩ := h hended
    rw [setTimebase, hphase.symm, hrest.symm]
  next => rfl

theorem takeDueEvents_of_nothingDue (h : s.NothingDue) : s.takeDueEvents = s := by
  obtain ⟨hslew, hboundary, hexpiry, hscan, harmed, hmissing⟩ := h
  rw [takeDueEvents, takeSlewEnd_of_not hslew, takeArmedExpiry_of_not harmed, takeMissingPulse_of_not hmissing,
    takeBoundary_of_none hboundary, takeExpiry_of_none hexpiry, takeScan_of_not hscan]

/-- A cycle takes what waits and then advances fine time (log 5). -/
theorem exec_oscillatorCycle (h : s.inReset = false) :
    exec .oscillatorCycle s = .next (s.takeDueEvents.setTimebase (s.takeDueEvents.timebase.cycle s.takeDueEvents.params)) :=
  congrArg Host.Outcome.next (onEvent_of_not_inReset h _)

/-- A cycle at whose start nothing waits changes the Timebase alone (R1). -/
theorem exec_oscillatorCycle_of_nothingDue (h : s.inReset = false) (hd : s.NothingDue) :
    exec .oscillatorCycle s = .next { s with timebase := s.timebase.cycle s.params } := by
  rw [exec_oscillatorCycle h, takeDueEvents_of_nothingDue hd]
  rfl

theorem exec_slewRemainderEnd (h : s.inReset = false) : exec .slewRemainderEnd s = .next s.takeSlewEnd :=
  congrArg Host.Outcome.next (onEvent_of_not_inReset h _)

theorem exec_armedExpiry (h : s.inReset = false) : exec .armedExpiry s = .next s.takeArmedExpiry :=
  congrArg Host.Outcome.next (onEvent_of_not_inReset h _)

theorem exec_missingPulseEvent (h : s.inReset = false) : exec .missingPulseEvent s = .next s.takeMissingPulse :=
  congrArg Host.Outcome.next (onEvent_of_not_inReset h _)

theorem exec_boundaryEvent (h : s.inReset = false) : exec .boundaryEvent s = .next s.takeBoundary :=
  congrArg Host.Outcome.next (onEvent_of_not_inReset h _)

theorem exec_expiryEvent (h : s.inReset = false) : exec .expiryEvent s = .next s.takeExpiry :=
  congrArg Host.Outcome.next (onEvent_of_not_inReset h _)

theorem exec_scanEvent (h : s.inReset = false) : exec .scanEvent s = .next s.takeScan :=
  congrArg Host.Outcome.next (onEvent_of_not_inReset h _)

end State

/-- Settles O5: each event's command finds nothing to do, by the part of `NothingDue` that is about it. -/
theorem eventsThatAreNotThereDoNothing : Obligations.EventsThatAreNotThereDoNothing := by
  intro s hr
  refine ⟨fun ⟨hslew, hboundary, hexpiry, hscan, harmed, hmissing⟩ c hc => ?_, fun edge hedge => ?_⟩
  · simp only [timedEvents, List.mem_cons, List.not_mem_nil, or_false] at hc
    rcases hc with rfl | rfl | rfl | rfl | rfl | rfl
    · rw [State.exec_slewRemainderEnd hr, State.takeSlewEnd_of_not hslew]
    · rw [State.exec_armedExpiry hr, State.takeArmedExpiry_of_not harmed]
    · rw [State.exec_missingPulseEvent hr, State.takeMissingPulse_of_not hmissing]
    · rw [State.exec_boundaryEvent hr, State.takeBoundary_of_none hboundary]
    · rw [State.exec_expiryEvent hr, State.takeExpiry_of_none hexpiry]
    · rw [State.exec_scanEvent hr, State.takeScan_of_not hscan]
  · have hexec : exec (.refPulse edge) s = .next (if edge = s.straps.refEdge then s.takePulse else s) :=
      congrArg Host.Outcome.next (onEvent_of_not_inReset hr _)
    rw [hexec]
    split
    next heq =>
      have hfree : s.timebase.discipline = .free := hedge.resolve_left (absurd heq)
      simp [State.takePulse, hfree]
    next => rfl

/-! ### One cycle of the Timebase (R1, R2, R13) -/

namespace Timebase

variable (t : Timebase) (p : Params)

/-- A step of fine time is positive, as the trim is smaller than the nominal step (R1, R2). -/
theorem step_eq : (t.step : Int) = 524288000 + max (-262144) (min 262144 (t.freqPart + t.phasePart)) := by
  have := clamp_bounds (n := trimLimit) (by decide) (t.freqPart + t.phasePart)
  simp only [step, trim, clamp, trimLimit, nominalStep] at *
  omega

/-- The sum that a cycle would give fine time, as R1 writes it. -/
theorem fine_add_step :
    t.fine + t.step = (((2 ^ 32 * t.us + t.frac : Nat) : Int) + 524288000
      + max (-262144) (min 262144 (t.freqPart + t.phasePart))).toNat := by
  have := t.step_eq
  simp only [fine, usUnits_eq]
  omega

/-- Of an advance nothing but fine time changes (R1). -/
theorem advanceFine_eq : t.advanceFine = { t with us := t.advanceFine.us, frac := t.advanceFine.frac } := by
  unfold advanceFine
  dsimp only
  split <;> rfl

theorem advanceSlew_eq :
    t.advanceSlew = { t with slewRemainder :=
      if t.discipline = .slewing then t.slewRemainder - t.phasePart.natAbs else t.slewRemainder } := by
  unfold advanceSlew
  split <;> rfl

/-- Below the end of its range an advance adds the step (R1). -/
theorem advanceFine_of_lt (h : t.fine + t.step < 2 ^ 88) :
    2 ^ 32 * t.advanceFine.us + t.advanceFine.frac = t.fine + t.step ∧ t.advanceFine.frac < 2 ^ 32 := by
  have hle : ¬ maxUs < (t.fine + t.step) / usUnits := by
    rw [usUnits_eq, maxUs]
    omega
  rw [advanceFine, if_neg hle, usUnits_eq]
  exact ⟨Nat.div_add_mod .., Nat.mod_lt _ (Nat.two_pow_pos 32)⟩

/-- At the end of its range fine time is held (R1). -/
theorem advanceFine_of_ge (h : 2 ^ 88 ≤ t.fine + t.step) :
    t.advanceFine.us = 2 ^ 56 - 1 ∧ t.advanceFine.frac = 2 ^ 32 - 1 := by
  have hlt : maxUs < (t.fine + t.step) / usUnits := by
    rw [usUnits_eq, maxUs]
    omega
  rw [advanceFine, if_pos hlt]
  exact ⟨rfl, rfl⟩

/-- The events raised reach the three fields where events wait, and nothing else (R18 to R20). -/
theorem raiseEvents_eq (before : Nat) :
    t.raiseEvents p before = { t with
      boundaryDue := (t.raiseEvents p before).boundaryDue, expiryDue := (t.raiseEvents p before).expiryDue,
      scanDue := (t.raiseEvents p before).scanDue } := by
  unfold raiseEvents
  split <;> rfl

@[simp] theorem cycle_us : (t.cycle p).us = t.advanceFine.us := by
  rw [cycle, raiseEvents_eq, advanceSlew_eq]

@[simp] theorem cycle_frac : (t.cycle p).frac = t.advanceFine.frac := by
  rw [cycle, raiseEvents_eq, advanceSlew_eq]

@[simp] theorem cycle_slewRemainder :
    (t.cycle p).slewRemainder =
      if t.discipline = .slewing then t.slewRemainder - t.phasePart.natAbs else t.slewRemainder := by
  rw [cycle, raiseEvents_eq, advanceSlew_eq, advanceFine_eq]

/-- What a cycle may change. -/
theorem cycle_eq :
    t.cycle p = { t with
      us := (t.cycle p).us, frac := (t.cycle p).frac, slewRemainder := (t.cycle p).slewRemainder,
      boundaryDue := (t.cycle p).boundaryDue, expiryDue := (t.cycle p).expiryDue, scanDue := (t.cycle p).scanDue } := by
  rw [cycle, raiseEvents_eq, advanceSlew_eq, advanceFine_eq]

end Timebase

/-- Settles O2: the advance of fine time, of the slew and of nothing else but the events. -/
theorem oscillatorCycleAddsTheStep : Obligations.OscillatorCycleAddsTheStep := by
  intro s hr hdue
  refine ⟨_, State.exec_oscillatorCycle_of_nothingDue hr hdue, ?_⟩
  intro sum
  have hsum : s.timebase.fine + s.timebase.step = sum := s.timebase.fine_add_step
  rw [Timebase.cycle_us, Timebase.cycle_frac, ← hsum]
  exact ⟨s.timebase.advanceFine_of_lt, s.timebase.advanceFine_of_ge, s.timebase.cycle_slewRemainder _,
    by simpa using s.timebase.cycle_eq s.params⟩

/-! ### The events that a cycle raises (R18, R19, R20) -/

theorem boundaryAt_eq_some {p : Params} (h : 0 < p.windowLength) {us b : Nat} :
    boundaryAt p us = some b ↔ b * (1000000 * p.windowLength) = us := by
  have hw : 0 < 1000000 * p.windowLength := by omega
  rw [boundaryAt, Option.ite_none_right_eq_some, Option.some.injEq, Params.windowUs, million]
  constructor
  · rintro ⟨hmod, rfl⟩
    exact Nat.div_mul_cancel (Nat.dvd_of_mod_eq_zero hmod)
  · rintro rfl
    exact ⟨Nat.mul_mod_left .., Nat.mul_div_cancel _ hw⟩

theorem expiryAt_eq_some {p : Params} (h : 0 < p.windowLength) {us w : Nat} :
    expiryAt p us = some w ↔ (w + 1) * (1000000 * p.windowLength) + 1000000 * p.holdOpen = us := by
  have hw : 0 < 1000000 * p.windowLength := by omega
  rw [expiryAt, Option.ite_none_right_eq_some, Option.some.injEq, Params.windowUs, Params.holdUs, million]
  generalize 1000000 * p.windowLength = length at *
  generalize 1000000 * p.holdOpen = hold at *
  constructor
  · rintro ⟨⟨hle, hmod⟩, rfl⟩
    have hpos : 1 ≤ (us - hold) / length := (Nat.one_le_div_iff hw).mpr (by omega)
    rw [Nat.sub_add_cancel hpos, Nat.div_mul_cancel (Nat.dvd_of_mod_eq_zero hmod)]
    omega
  · rintro rfl
    have hle : length ≤ (w + 1) * length := Nat.le_mul_of_pos_left _ (by omega)
    rw [Nat.add_sub_cancel, Nat.mul_mod_left, Nat.mul_div_cancel _ hw]
    exact ⟨⟨by omega, rfl⟩, rfl⟩

theorem Discipline.valid_eq_false {d : Discipline} : d.valid = false ↔ d = .free ∨ d = .armed := by
  cases d <;> decide

/-- A good L is above 0 (Table 10-3). -/
theorem Params.windowLength_pos {p : Params} (h : p.Good) : 0 < p.windowLength := by
  obtain ⟨-, -, -, -, -, -, -, -, -, -, -, -, -, -, hlength, -⟩ := h
  by_contra hzero
  rw [Nat.eq_zero_of_not_pos hzero] at hlength
  exact absurd hlength (by decide)

namespace Timebase

variable {t : Timebase} {p : Params}

/-- A cycle that brings no new value, or without valid time, raises nothing (R18). -/
theorem cycle_due_of_not (h : ¬ ((t.cycle p).us ≠ t.us ∧ t.discipline.valid = true)) :
    (t.cycle p).boundaryDue = t.boundaryDue ∧ (t.cycle p).expiryDue = t.expiryDue ∧ (t.cycle p).scanDue = t.scanDue := by
  have hc : t.cycle p = t.advanceFine.advanceSlew := by
    refine if_neg ?_
    rw [cycle_us] at h
    rwa [advanceSlew_discipline, advanceFine_discipline, advanceSlew_eq]
  rw [hc, advanceSlew_eq, advanceFine_eq]
  exact ⟨rfl, rfl, rfl⟩

/-- A cycle that brings valid time to a new value raises the events of that value (R18 to R20). -/
theorem cycle_due_of_new (h : (t.cycle p).us ≠ t.us) (hv : t.discipline.valid = true) :
    (t.cycle p).boundaryDue = boundaryAt p (t.cycle p).us ∧ (t.cycle p).expiryDue = expiryAt p (t.cycle p).us
      ∧ (t.cycle p).scanDue = scanAt p (t.cycle p).us := by
  have hu : t.advanceFine.advanceSlew.us = (t.cycle p).us := by rw [cycle_us, advanceSlew_eq]
  have hc : t.cycle p = { t.advanceFine.advanceSlew with
      boundaryDue := boundaryAt p t.advanceFine.advanceSlew.us
      expiryDue := expiryAt p t.advanceFine.advanceSlew.us
      scanDue := scanAt p t.advanceFine.advanceSlew.us } := by
    refine if_pos ⟨by rwa [hu], ?_⟩
    rwa [advanceSlew_discipline, advanceFine_discipline]
  rw [← hu, hc]
  exact ⟨rfl, rfl, rfl⟩

end Timebase

/-- Settles O3: the three fields where events wait, after a cycle that raises and after one that does not. -/
theorem cycleRaisesTheEventsOfTheMicrosecond : Obligations.CycleRaisesTheEventsOfTheMicrosecond := by
  intro s t hr hdue hparams hnext
  rw [State.exec_oscillatorCycle_of_nothingDue hr hdue] at hnext
  cases hnext
  have hlength := Params.windowLength_pos hparams
  refine ⟨fun hno => ?_, fun hnew hfree harmed => ?_⟩
  · obtain ⟨-, hboundary, hexpiry, hscan, -⟩ := hdue
    have hnot : ¬ ((s.timebase.cycle s.params).us ≠ s.timebase.us ∧ s.timebase.discipline.valid = true) := by
      rintro ⟨hne, hv⟩
      rcases hno with h | h | h
      · exact hne h
      · rw [h] at hv; cases hv
      · rw [h] at hv; cases hv
    obtain ⟨eboundary, eexpiry, escan⟩ := Timebase.cycle_due_of_not hnot
    exact ⟨eboundary.trans hboundary, eexpiry.trans hexpiry, escan.trans hscan⟩
  · have hv : s.timebase.discipline.valid = true := by
      rw [← Bool.not_eq_false, Discipline.valid_eq_false]
      exact not_or.mpr ⟨hfree, harmed⟩
    obtain ⟨eboundary, eexpiry, escan⟩ := Timebase.cycle_due_of_new hnew hv
    refine ⟨fun b => ?_, fun w => ?_, ?_⟩
    · rw [eboundary, boundaryAt_eq_some hlength]
    · rw [eexpiry, expiryAt_eq_some hlength]
    · rw [escan, scanAt, beq_iff_eq, Nat.dvd_iff_mod_eq_zero]

/-! ### The events that wait are taken first (log 5) -/

namespace State

variable (s : State)

/-- What the taking of an event that waits in a field leaves of the Timebase (R18 to R20). -/
theorem takeBoundary_timebase : s.takeBoundary.timebase = { s.timebase with boundaryDue := none } := by
  unfold takeBoundary
  split
  · exact (windowBoundary_step _ _).timebase
  next h => rw [← h]

theorem takeExpiry_timebase : s.takeExpiry.timebase = { s.timebase with expiryDue := none } := by
  unfold takeExpiry
  split
  · exact (endCheck_step _ _ _).timebase
  next h => rw [← h]

theorem scanStation_timebase (n : StationNo) : (s.scanStation n).timebase = s.timebase := by
  unfold scanStation
  split
  · exact (leaveService_step s n _).timebase
  · rfl

theorem scanStations_timebase : s.scanStations.timebase = s.timebase :=
  List.foldlRecOn (motive := fun t : State => t.timebase = s.timebase) _ _ rfl fun t ht n _ =>
    (t.scanStation_timebase n).trans ht

theorem takeScan_timebase : s.takeScan.timebase = { s.timebase with scanDue := false } := by
  unfold takeScan
  split
  · exact scanStations_timebase _
  next h => rw [← Bool.eq_false_of_not_eq_true h]

/-- After the end of a slew was looked for, no end of a slew waits (R13). -/
theorem takeSlewEnd_slewEnded (h : s.takeSlewEnd.timebase.slewEnded = true) :
    s.takeSlewEnd.timebase.phasePart = 0 ∧ s.takeSlewEnd.timebase.slewRemainder = 0 := by
  unfold takeSlewEnd at h ⊢
  split
  · exact ⟨rfl, rfl⟩
  next hnot => rw [if_neg hnot] at h; exact absurd h hnot

/-- The ARMED expiry leaves the Timebase or disarms it; either way none waits after it (R6). -/
theorem takeArmedExpiry_timebase :
    (s.takeArmedExpiry.timebase = s.timebase
        ∧ (s.timebase.discipline = .armed → ∀ f ∈ s.timebase.inFlight, s.timebase.us < f.armTime + 2000000))
      ∨ (s.timebase.discipline = .armed ∧ s.takeArmedExpiry.timebase = s.timebase.disarm) := by
  unfold takeArmedExpiry
  split
  next f hd hf =>
    split
    · exact .inr ⟨hd, withTimebase_timebase ..⟩
    next hlt =>
      refine .inl ⟨rfl, fun _ g hg => ?_⟩
      rw [hf] at hg
      cases hg
      omega
  next hno =>
    refine .inl ⟨rfl, fun hd f hf => ?_⟩
    exact absurd hf (hno f hd)

/-- The missing-pulse event leaves the Timebase or counts a missing pulse; either way none waits after it (R10). -/
theorem takeMissingPulse_timebase :
    (s.takeMissingPulse.timebase = s.timebase
        ∧ (s.timebase.discipline.valid = true → ∀ d ∈ s.timebase.deadline, s.timebase.us < d))
      ∨ (s.timebase.discipline.valid = true ∧ s.takeMissingPulse.timebase = s.timebase.missPulse) := by
  unfold takeMissingPulse
  split
  next d hd =>
    split
    next h => exact .inr ⟨h.1, withTimebase_timebase ..⟩
    next h =>
      refine .inl ⟨rfl, fun hv e he => ?_⟩
      rw [hd] at he
      cases he
      exact Nat.not_le.mp fun hle => h ⟨hv, hle⟩
  next hno => exact .inl ⟨rfl, fun _ d hd => by rw [hno] at hd; cases hd⟩

end State

/-- What an event of the Timebase's own values needs in order not to wait (R6, R10, R13). -/
def Timebase.Settled (t : Timebase) : Prop :=
  (t.slewEnded = true → t.phasePart = 0 ∧ t.slewRemainder = 0)
    ∧ (t.discipline = .armed → ∀ f ∈ t.inFlight, t.us < f.armTime + 2000000)
    ∧ (t.discipline.valid = true → ∀ d ∈ t.deadline, t.us < d)

namespace Timebase

/-- A counted missing pulse ends a slew and moves the deadline beyond the present µs (R10). -/
theorem missPulse_settled {t : Timebase} (hv : t.discipline.valid = true) : t.missPulse.Settled := by
  unfold missPulse
  cases hd : t.discipline <;> rw [hd] at hv
  case free | armed => cases hv
  all_goals simp [Settled, slewEnded, enterHoldover]

end Timebase

namespace State

variable (s : State)

/-- After the three events of the Timebase's own values none of them waits. -/
theorem settled_after_own_events : s.takeSlewEnd.takeArmedExpiry.takeMissingPulse.timebase.Settled := by
  have hslew := s.takeSlewEnd_slewEnded
  generalize s.takeSlewEnd = u at *
  rcases u.takeArmedExpiry_timebase with ⟨htime, harmed⟩ | ⟨hd, htime⟩
  · rcases u.takeArmedExpiry.takeMissingPulse_timebase with ⟨htime', hmissing⟩ | ⟨hv, htime'⟩
    · rw [htime] at htime' hmissing
      rw [htime']
      exact ⟨hslew, harmed, hmissing⟩
    · rw [htime']
      exact Timebase.missPulse_settled hv
  · have hfree : u.takeArmedExpiry.timebase.discipline = .free := by rw [htime]; rfl
    have hno : u.takeArmedExpiry.takeMissingPulse = u.takeArmedExpiry :=
      takeMissingPulse_of_not fun hv => by rw [hfree] at hv; cases hv
    rw [hno]
    simp [Timebase.Settled, Timebase.slewEnded, hfree, Discipline.valid]

/-- After the events that wait have been taken no event waits (log 5). -/
theorem takeDueEvents_nothingDue : s.takeDueEvents.NothingDue := by
  obtain ⟨hslew, harmed, hmissing⟩ := s.settled_after_own_events
  have htime : s.takeDueEvents.timebase =
      { s.takeSlewEnd.takeArmedExpiry.takeMissingPulse.timebase with
        boundaryDue := none, expiryDue := none, scanDue := false } := by
    rw [takeDueEvents, takeScan_timebase, takeExpiry_timebase, takeBoundary_timebase]
  rw [NothingDue, htime]
  exact ⟨hslew, rfl, rfl, rfl, harmed, hmissing⟩

end State

end Sys2Proof.Machine

/-! PROOFS. What an operation may change: the state in named parts, and for each operation the parts it may touch. Every
invariant is about some of the parts, so that an operation which touches none of them keeps it. -/

namespace Sys2Proof.Machine

/-- The parts of the state that the invariants and the isolation of the slots (R150) are about. -/
inductive Part where
  | timebase | params | mode | stations | windows | notices | lines
  | range (m : Slot) | capture (m : Slot) | staging (m : Slot) | intake (m : Slot) | request (m : Slot)
  | flight (m : Slot) | enables (m : Slot)
  deriving DecidableEq

/-- The request slots of all four slots: the SET TIME in flight, which an event of the Timebase completes, may be any
slot's (R5, R6). -/
def Part.requests : List Part := (List.finRange 4).flatMap fun m => [.request m, .flight m]

@[simp] theorem Part.mem_requests {p : Part} : p ∈ Part.requests ↔ ∃ m : Slot, p = .request m ∨ p = .flight m := by
  simp [Part.requests]

/-- A slot's notice queue with its CLOSED flag (R125, R140). -/
def Context.noticePart (c : Context) : List Notice × Bool := (c.reader.notices, c.attention.pending.getLsbD 3)

/-- An intake apart from its staging words, of which no invariant speaks (R78, R80). -/
def Intake.queuePart (i : Intake) : Intake := { i with staging := Intake.reset.staging }

/-- A part stands as it was. -/
def Part.Same (s t : State) : Part → Prop
  | .timebase => t.timebase = s.timebase
  | .params => t.params = s.params
  | .mode => t.part = s.part
  | .stations => t.stations = s.stations
  | .windows => t.windows = s.windows
  | .notices => ∀ m : Slot, (t.ctx m).noticePart = (s.ctx m).noticePart
  | .lines => t.inReset = s.inReset
  | .range m => (t.ctx m).range = (s.ctx m).range
  | .capture m => (t.ctx m).capture = (s.ctx m).capture
  | .staging m => (t.ctx m).intake.staging = (s.ctx m).intake.staging
  | .intake m => (t.ctx m).intake.queuePart = (s.ctx m).intake.queuePart
  | .request m => (t.ctx m).request = (s.ctx m).request
  | .flight m => (t.ctx m).request.inFlight = (s.ctx m).request.inFlight
  | .enables m => (t.ctx m).attention.enables = (s.ctx m).attention.enables

/-- From s to t no part has changed but those listed. -/
def Changes (l : List Part) (s t : State) : Prop := ∀ p : Part, p ∉ l → p.Same s t

namespace Changes

variable {l l' : List Part} {s t u : State}

theorem refl (l : List Part) (s : State) : Changes l s s := fun p _ => by cases p <;> simp [Part.Same]

theorem mono (h : Changes l s t) (hl : l ⊆ l') : Changes l' s t := fun p hp => h p fun hm => hp (hl hm)

theorem trans (h : Changes l s t) (h' : Changes l u s) : Changes l u t := by
  intro p hp
  have h1 := h p hp
  have h2 := h' p hp
  cases p <;> simp only [Part.Same] at * <;> simp_all

theorem foldl {α β : Type} (g : β → State) {f : β → α → β}
    (h : ∀ b a, Changes l (g b) (g (f b a))) (xs : List α) (b : β) :
    Changes l (g b) (g (xs.foldl f b)) :=
  List.foldlRecOn xs f (motive := fun x => Changes l (g b) (g x)) (refl l _) fun x hx a _ => (h x a).trans hx

theorem timebase (h : Changes l s t) (hp : .timebase ∉ l) : t.timebase = s.timebase := h _ hp
theorem params (h : Changes l s t) (hp : .params ∉ l) : t.params = s.params := h _ hp
theorem mode (h : Changes l s t) (hp : .mode ∉ l) : t.part = s.part := h _ hp
theorem stations (h : Changes l s t) (hp : .stations ∉ l) : t.stations = s.stations := h _ hp
theorem windows (h : Changes l s t) (hp : .windows ∉ l) : t.windows = s.windows := h _ hp
theorem lines (h : Changes l s t) (hp : .lines ∉ l) : t.inReset = s.inReset := h _ hp

theorem station (h : Changes l s t) (hp : .stations ∉ l) (n : StationNo) : t.station n = s.station n := by
  rw [State.station, h.stations hp]
  rfl

theorem held (h : Changes l s t) (hp : .windows ∉ l) : t.held = s.held := by
  rw [State.held, h.windows hp]
  rfl

theorem noticePart (h : Changes l s t) (hp : .notices ∉ l) (m : Slot) : (t.ctx m).noticePart = (s.ctx m).noticePart :=
  h _ hp m

theorem range {m : Slot} (h : Changes l s t) (hp : .range m ∉ l) : (t.ctx m).range = (s.ctx m).range := h _ hp
theorem capture {m : Slot} (h : Changes l s t) (hp : .capture m ∉ l) : (t.ctx m).capture = (s.ctx m).capture := h _ hp
theorem queuePart {m : Slot} (h : Changes l s t) (hp : .intake m ∉ l) :
    (t.ctx m).intake.queuePart = (s.ctx m).intake.queuePart := h _ hp

theorem intake {m : Slot} (h : Changes l s t) (hs : .staging m ∉ l) (hp : .intake m ∉ l) :
    (t.ctx m).intake = (s.ctx m).intake := by
  have hstaging : (t.ctx m).intake.staging = (s.ctx m).intake.staging := h _ hs
  have hqueue : (t.ctx m).intake.queuePart = (s.ctx m).intake.queuePart := h _ hp
  have put (i : Intake) : i = { i.queuePart with staging := i.staging } := rfl
  rw [put (t.ctx m).intake, hqueue, hstaging]
  rfl

theorem request {m : Slot} (h : Changes l s t) (hp : .request m ∉ l) : (t.ctx m).request = (s.ctx m).request := h _ hp

theorem inFlight {m : Slot} (h : Changes l s t) (hp : .flight m ∉ l) :
    (t.ctx m).request.inFlight = (s.ctx m).request.inFlight := h _ hp

theorem enables {m : Slot} (h : Changes l s t) (hp : .enables m ∉ l) :
    (t.ctx m).attention.enables = (s.ctx m).attention.enables := h _ hp

/-- What the Window Store's operations reach: the windows, and of the parts of a slot the notices alone. -/
theorem of_windowStep (h : WindowStep s t) : Changes [.windows, .notices] s t := by
  intro p hp
  cases p with
  | timebase => exact h.timebase
  | params => exact h.params
  | mode => exact h.part
  | stations => exact h.stations
  | lines => simp only [Part.Same, State.inReset, h.resetPin, h.busReset]
  | range m => exact h.range m
  | capture m => exact h.capture m
  | staging m => exact congrArg Intake.staging (h.intake m)
  | intake m => exact congrArg Intake.queuePart (h.intake m)
  | request m => exact h.request m
  | flight m => exact congrArg RequestSlot.inFlight (h.request m)
  | enables m => exact h.enables m
  | windows | notices => simp at hp

/-- A change of one slot's context, by the parts of the context that it leaves. -/
theorem of_modCtx (l : List Part) (s : State) (m : Slot) {f : Context → Context}
    (hnotices : .notices ∉ l → (f (s.ctx m)).noticePart = (s.ctx m).noticePart)
    (hrange : .range m ∉ l → (f (s.ctx m)).range = (s.ctx m).range)
    (hcapture : .capture m ∉ l → (f (s.ctx m)).capture = (s.ctx m).capture)
    (hstaging : .staging m ∉ l → (f (s.ctx m)).intake.staging = (s.ctx m).intake.staging)
    (hintake : .intake m ∉ l → (f (s.ctx m)).intake.queuePart = (s.ctx m).intake.queuePart)
    (hrequest : .request m ∉ l → (f (s.ctx m)).request = (s.ctx m).request)
    (hflight : .flight m ∉ l → (f (s.ctx m)).request.inFlight = (s.ctx m).request.inFlight)
    (henables : .enables m ∉ l → (f (s.ctx m)).attention.enables = (s.ctx m).attention.enables) :
    Changes l s (s.modCtx m f) := by
  have key {α : Type} (g : Context → α) (h : g (f (s.ctx m)) = g (s.ctx m)) (k : Slot) :
      g ((s.modCtx m f).ctx k) = g (s.ctx k) := by
    by_cases hk : k = m
    · subst hk
      rw [State.ctx_modCtx_same, h]
    · rw [State.ctx_modCtx_of_ne hk]
  have own {α : Type} (g : Context → α) (k : Slot) (h : k = m → g (f (s.ctx m)) = g (s.ctx m)) :
      g ((s.modCtx m f).ctx k) = g (s.ctx k) := by
    by_cases hk : k = m
    · exact key g (h hk) k
    · rw [State.ctx_modCtx_of_ne hk]
  intro p hp
  cases p with
  | notices => exact key _ (hnotices hp)
  | range k => exact own Context.range k fun e => hrange (e ▸ hp)
  | capture k => exact own Context.capture k fun e => hcapture (e ▸ hp)
  | staging k => exact own (fun c => c.intake.staging) k fun e => hstaging (e ▸ hp)
  | intake k => exact own (fun c => c.intake.queuePart) k fun e => hintake (e ▸ hp)
  | request k => exact own Context.request k fun e => hrequest (e ▸ hp)
  | flight k => exact own (fun c => c.request.inFlight) k fun e => hflight (e ▸ hp)
  | enables k => exact own (fun c => c.attention.enables) k fun e => henables (e ▸ hp)
  | timebase | params | mode | stations | windows | lines => rfl

/-- A change of every slot's context that leaves all the parts. -/
theorem of_modAllCtx (l : List Part) (s : State) {f : Context → Context}
    (h : ∀ c, (f c).noticePart = c.noticePart ∧ (f c).range = c.range ∧ (f c).capture = c.capture
      ∧ (f c).intake = c.intake ∧ (f c).request = c.request ∧ (f c).attention.enables = c.attention.enables) :
    Changes l s (s.modAllCtx f) := by
  intro p _
  cases p with
  | timebase | params | mode | stations | windows | lines => rfl
  | notices => exact fun m => by rw [State.ctx_modAllCtx]; exact (h _).1
  | range m | capture m | staging m | intake m | request m | flight m | enables m =>
    obtain ⟨-, hrange, hcapture, hintake, hrequest, henables⟩ := h (s.ctx m)
    simp only [Part.Same, State.ctx_modAllCtx, *]

end Changes

namespace State

/-! ### The small operations -/

section Small

variable (s : State) (m : Slot) (n : StationNo)

theorem modIntake_changes (f : Intake → Intake) : Changes [.staging m, .intake m] s (s.modIntake m f) := by
  apply Changes.of_modCtx <;> simp [Context.noticePart]

/-- A change of a slot's staging words alone. -/
theorem modIntake_changes_staging {f : Intake → Intake} (h : ∀ i, (f i).queuePart = i.queuePart) :
    Changes [.staging m] s (s.modIntake m f) := by
  apply Changes.of_modCtx <;> simp [Context.noticePart, h]

theorem modCapture_changes (f : Capture → Capture) : Changes [.capture m] s (s.modCapture m f) := by
  apply Changes.of_modCtx <;> simp [Context.noticePart]

/-- A change of a reader's state that leaves its notices. -/
theorem modReader_changes {f : Reader → Reader} (h : ∀ r, (f r).notices = r.notices) : Changes [] s (s.modReader m f) := by
  apply Changes.of_modCtx <;> simp [Context.noticePart, h]

theorem setRangeEntry_changes (r : Option Range) : Changes [.range m] s (s.setRangeEntry m r) := by
  apply Changes.of_modCtx <;> simp [Context.noticePart]

/-- A change of a slot's flags that leaves CLOSED and the mask. -/
theorem modAttention_changes {f : Attention → Attention} (h : ∀ a, (f a).enables = a.enables)
    (hc : ∀ a, (f a).pending.getLsbD 3 = a.pending.getLsbD 3) : Changes [] s (s.modAttention m f) := by
  refine Changes.of_modCtx _ s m (fun _ => Prod.ext rfl (hc _)) ?_ ?_ ?_ ?_ ?_ ?_ ?_ <;> simp [h]

theorem raise_changes {c : Cause} (h : c ≠ .closed) : Changes [] s (s.raise m c) := by
  refine modAttention_changes s m (fun a => a.raise_enables c) fun a => ?_
  rw [Attention.getLsbD_raise a c (by decide)]
  cases c <;> simp_all [Cause.index]

theorem raiseAll_changes : Changes [] s (s.raiseAll .timebase) := by
  refine Changes.of_modAllCtx _ s fun c => ⟨?_, rfl, rfl, rfl, rfl, rfl⟩
  simp only [Context.noticePart, Attention.getLsbD_raise c.attention .timebase (i := 3) (by decide)]
  simp [Cause.index]

/-- A change of a request slot that leaves it IDLE or IN FLIGHT as it was. -/
theorem modRequest_changes {f : RequestSlot → RequestSlot}
    (h : (f (s.ctx m).request).inFlight = (s.ctx m).request.inFlight) : Changes [.request m] s (s.modRequest m f) := by
  apply Changes.of_modCtx <;> simp [Context.noticePart, h]

theorem modRequest_changes_flight (f : RequestSlot → RequestSlot) :
    Changes [.request m, .flight m] s (s.modRequest m f) := by
  apply Changes.of_modCtx <;> simp [Context.noticePart]

theorem noteCode_changes (v : Word) : Changes [.request m] s (s.noteCode m v) := modRequest_changes s m rfl

theorem answer_changes (r : Response) (d : Option Word) : Changes [] s (s.answer r d) :=
  fun p _ => by cases p <;> simp [Part.Same]

theorem setTimebase_changes (t : Timebase) : Changes [.timebase] s (s.setTimebase t) := by
  intro p hp
  cases p with
  | timebase => simp at hp
  | _ => simp [Part.Same]

theorem withTimebase_changes (t : Timebase) : Changes [.timebase] s (s.withTimebase t) := by
  unfold withTimebase
  split
  · exact setTimebase_changes s t
  · exact ((raiseAll_changes _).mono (by simp)).trans (setTimebase_changes s t)

theorem stations_changes (v : Vector Station 128) : Changes [.stations] s { s with stations := v } := by
  intro p hp
  cases p with
  | stations => simp at hp
  | _ => simp [Part.Same, ctx, inReset]

theorem modStation_changes (f : Station → Station) : Changes [.stations] s (s.modStation n f) := stations_changes s _

theorem modAllStations_changes (f : Station → Station) : Changes [.stations] s (s.modAllStations f) :=
  stations_changes s _

/-- A completion makes a slot IDLE (R159). -/
theorem complete_changes_flight (st : Status) (v : Values) : Changes [.request m, .flight m] s (s.complete m st v) :=
  ((raise_changes _ m (by decide)).mono (by simp)).trans (modRequest_changes_flight s m _)

/-- The completion of a request that was not left in flight (R158, R159). -/
theorem complete_changes (h : (s.ctx m).request.inFlight = false) (st : Status) (v : Values) :
    Changes [.request m] s (s.complete m st v) :=
  ((raise_changes _ m (by decide)).mono (by simp)).trans (modRequest_changes s m h.symm)

/-- The completion of a request after an operation that leaves the slot IDLE. -/
theorem then_complete {s u : State} {m : Slot} {l : List Part} (h : Changes l s u) (hf : .flight m ∉ l)
    (hidle : (s.ctx m).request.inFlight = false) (st : Status) (v : Values) :
    Changes (.request m :: l) s (u.complete m st v) :=
  ((complete_changes u m ((h.inFlight hf).trans hidle) st v).mono (by simp)).trans (h.mono (by simp))

end Small

/-! ### The Timebase -/

section Timebase

variable (s : State) (m : Slot)

theorem takeSlewEnd_changes : Changes [.timebase] s s.takeSlewEnd := by
  unfold takeSlewEnd
  split
  · exact setTimebase_changes s _
  · exact .refl _ s

theorem takeMissingPulse_changes : Changes [.timebase] s s.takeMissingPulse := by
  unfold takeMissingPulse
  split
  · split
    · exact withTimebase_changes s _
    · exact .refl _ s
  · exact .refl _ s

theorem takeArmedExpiry_changes : Changes (.timebase :: Part.requests) s s.takeArmedExpiry := by
  unfold takeArmedExpiry
  split
  next f _ _ =>
    split
    · exact ((complete_changes_flight _ f.slot _ _).mono (by simp)).trans ((withTimebase_changes s _).mono (by simp))
    · exact .refl _ s
  next => exact .refl _ s

theorem armedPulse_changes : Changes (.timebase :: .stations :: Part.requests) s s.armedPulse := by
  unfold armedPulse
  split
  next f _ =>
    exact ((complete_changes_flight _ f.slot _ _).mono (by simp)).trans
      (((modAllStations_changes _ _).mono (by simp)).trans ((withTimebase_changes s _).mono (by simp)))
  next => exact .refl _ s

theorem takeBoundary_changes : Changes [.timebase, .stations, .windows, .notices] s s.takeBoundary := by
  unfold takeBoundary
  split
  · exact ((Changes.of_windowStep (windowBoundary_step _ _)).mono (by simp)).trans
      (((modAllStations_changes _ _).mono (by simp)).trans ((setTimebase_changes s _).mono (by simp)))
  · exact .refl _ s

theorem takeExpiry_changes : Changes [.timebase, .windows, .notices] s s.takeExpiry := by
  unfold takeExpiry
  split
  · exact ((Changes.of_windowStep (endCheck_step _ _ _)).mono (by simp)).trans
      ((setTimebase_changes s _).mono (by simp))
  · exact .refl _ s

theorem leaveService_changes (n : StationNo) (f : Station → Station) :
    Changes [.stations, .windows, .notices] s (s.leaveService n f) :=
  ((Changes.of_windowStep (leaveService_step s n f)).mono (by simp)).trans ((modStation_changes s n f).mono (by simp))

theorem scanStation_changes (n : StationNo) : Changes [.stations, .windows, .notices] s (s.scanStation n) := by
  unfold scanStation
  split
  · exact leaveService_changes s n _
  · exact .refl _ s

theorem takeScan_changes : Changes [.timebase, .stations, .windows, .notices] s s.takeScan := by
  unfold takeScan
  split
  · exact ((Changes.foldl id (fun t n => scanStation_changes t n) _ _).mono (by simp)).trans
      ((setTimebase_changes s _).mono (by simp))
  · exact .refl _ s

theorem takeCapture_changes : Changes [.capture m] s (s.takeCapture m) := by
  unfold takeCapture
  split
  · exact modCapture_changes s m _
  · exact .refl _ s

end Timebase

end State

/-- Settles O4: `State.takeDueEvents` is the six commands one after the other. -/
theorem cycleTakesWaitingEventsFirst : Obligations.CycleTakesWaitingEventsFirst := by
  intro s hr
  have keep {l : List Part} {u v : State} (h : Changes l u v) (hl : .lines ∉ l) (hu : u.inReset = false) :
      v.inReset = false := (h.lines hl).trans hu
  have h1 := keep (State.takeSlewEnd_changes s) (by decide) hr
  have h2 := keep (State.takeArmedExpiry_changes _) (by decide) h1
  have h3 := keep (State.takeMissingPulse_changes _) (by decide) h2
  have h4 := keep (State.takeBoundary_changes _) (by decide) h3
  have h5 := keep (State.takeExpiry_changes _) (by decide) h4
  have h6 := keep (State.takeScan_changes _) (by decide) h5
  refine ⟨s.takeDueEvents, ?_, s.takeDueEvents_nothingDue, ?_⟩
  · simp only [timedEvents, execAll, State.exec_slewRemainderEnd hr, State.exec_armedExpiry h1,
      State.exec_missingPulseEvent h2, State.exec_boundaryEvent h3, State.exec_expiryEvent h4, State.exec_scanEvent h5]
    rfl
  · rw [State.exec_oscillatorCycle hr,
      State.exec_oscillatorCycle_of_nothingDue (s := s.takeDueEvents) h6 s.takeDueEvents_nothingDue]
    rfl

end Sys2Proof.Machine

/-! PROOFS. What every command may change: the act of its owning block, the parts that the act touches, and around it the
edges of a transaction; with it the isolation of the slots (R150). -/

namespace Sys2Proof.Machine

namespace State

variable (s : State) (m : Slot)

/-! ### Events that come together -/

/-- The parts that the events of one moment, and the advance of time, may touch. -/
def cycleParts : List Part := .timebase :: .stations :: .windows :: .notices :: Part.requests

theorem takeCycle_changes : Changes cycleParts s s.takeCycle := by
  have own {l : List Part} {u v : State} (h : Changes l u v) (hl : ∀ p ∈ l, p ∈ cycleParts) : Changes cycleParts u v :=
    h.mono hl
  have slew := own (takeSlewEnd_changes s) (by decide)
  have armed := own (takeArmedExpiry_changes s.takeSlewEnd) (by decide)
  have missing := own (takeMissingPulse_changes s.takeSlewEnd.takeArmedExpiry) (by decide)
  have boundary := own (takeBoundary_changes s.takeSlewEnd.takeArmedExpiry.takeMissingPulse) (by decide)
  have expiry := own (takeExpiry_changes s.takeSlewEnd.takeArmedExpiry.takeMissingPulse.takeBoundary) (by decide)
  have scan := own (takeScan_changes s.takeSlewEnd.takeArmedExpiry.takeMissingPulse.takeBoundary.takeExpiry) (by decide)
  have due : Changes cycleParts s s.takeDueEvents :=
    scan.trans (expiry.trans (boundary.trans (missing.trans (armed.trans slew))))
  exact (own (setTimebase_changes _ _) (by decide)).trans due

theorem takePulse_changes : Changes (.timebase :: .stations :: Part.requests) s s.takePulse := by
  have measured (t : Timebase) : Changes (.timebase :: .stations :: Part.requests) s (s.withTimebase t) :=
    (withTimebase_changes s t).mono (by simp)
  unfold takePulse
  dsimp only
  split
  · exact .refl _ s
  · exact armedPulse_changes s
  · exact measured _
  · exact measured _
  · exact measured _

/-! ### Intake -/

section Intake

variable (n : StationNo) (rec : IntakeRecord)

theorem commitWord_changes (v : Word) : Changes [.staging m, .intake m] s (s.commitWord m v) := by
  unfold commitWord
  split
  · exact ((answer_changes _ _ _).mono (by simp)).trans (modIntake_changes s m _)
  · exact (answer_changes s _ _).mono (by simp)

theorem clearHold_changes : Changes [.staging m, .intake m] s (s.clearHold m) := by
  unfold clearHold
  split
  · exact ((raise_changes _ m (by decide)).mono (by simp)).trans (modIntake_changes s m _)
  · exact .refl _ s

theorem popQueue_changes : Changes [.staging m, .intake m] s (s.popQueue m) := by
  unfold popQueue
  dsimp only
  split
  · exact (clearHold_changes _ m).trans (modIntake_changes s m _)
  · exact modIntake_changes s m _

theorem stopMalformed_changes : Changes [.staging m, .intake m] s (s.stopMalformed m rec) :=
  ((raise_changes _ m (by decide)).mono (by simp)).trans ((modIntake_changes _ m _).trans (modIntake_changes s m _))

theorem countAtStation_changes (f : StationCounters → StationCounters) :
    Changes [.stations] s (s.countAtStation rec f) := by
  unfold countAtStation
  split
  · exact modStation_changes s _ _
  · exact .refl _ s

theorem refuseAtSlot_changes (kind : RecordKind) (code : RefusalCode) :
    Changes [.staging m, .intake m] s (s.refuseAtSlot m rec kind code) :=
  (modIntake_changes _ m _).trans (modIntake_changes s m _)

theorem refuseBlock_changes (code : RefusalCode) :
    Changes [.staging m, .intake m, .stations] s (s.refuseBlock m rec code) :=
  ((refuseAtSlot_changes _ m rec _ code).mono (by simp)).trans ((countAtStation_changes s rec _).mono (by simp))

theorem refuseProbe_changes (code : RefusalCode) :
    Changes [.staging m, .intake m, .stations] s (s.refuseProbe m rec code) :=
  ((refuseAtSlot_changes _ m rec _ code).mono (by simp)).trans ((countAtStation_changes s rec _).mono (by simp))

theorem placeOne_changes (p : State × Nat × Nat) (wf : Nat × Fragment) :
    Changes [.stations, .windows, .notices] p.1 (placeOne p wf).1 :=
  ((Changes.of_windowStep (placeOne_step p wf).1).mono (by simp)).trans ((stations_changes _ _).mono (by simp))

theorem reclaimFor_changes (need fuel : Nat) : Changes [.windows, .notices] s (s.reclaimFor need fuel) :=
  .of_windowStep (reclaimFor_step need fuel s)

theorem placeFragments_changes (l : List (Nat × Fragment)) :
    Changes [.stations, .windows, .notices] s (s.placeFragments l).1 := by
  unfold placeFragments
  dsimp only
  split
  · exact (reclaimFor_changes s _ _).mono (by simp)
  · exact (Changes.foldl Prod.fst placeOne_changes _ _).trans ((reclaimFor_changes s _ _).mono (by simp))

theorem blockOutcome_changes (stamp : Option Nat) (entered dropped : Nat) :
    Changes [.staging m, .intake m, .stations] s (s.blockOutcome m n rec stamp entered dropped) := by
  have marked := (modStation_changes s n fun r => r.afterBlock rec stamp).mono
    (l' := [.staging m, .intake m, .stations]) (by simp)
  unfold blockOutcome
  dsimp only
  split
  · exact ((modIntake_changes _ m _).mono (by simp)).trans marked
  · exact ((modIntake_changes _ m _).mono (by simp)).trans (((modStation_changes _ n _).mono (by simp)).trans marked)

/-- The parts that taking a record of slot m may touch. -/
abbrev takingParts (m : Slot) : List Part := [.staging m, .intake m, .stations, .windows, .notices]

theorem takeBlock_changes : Changes (takingParts m) s (s.takeBlock m rec) := by
  unfold takeBlock
  split
  · exact (refuseBlock_changes s m rec _).mono (by simp)
  next n c _ =>
    have placed := (placeFragments_changes s c.fragments).mono (l' := takingParts m) (by simp)
    split
    next s1 hp =>
      rw [hp] at placed
      exact ((refuseBlock_changes s1 m rec _).mono (by simp)).trans placed
    next s1 entered dropped hp =>
      rw [hp] at placed
      exact ((blockOutcome_changes s1 m n rec c.stamp entered dropped).mono (by simp)).trans placed

theorem takeProbe_changes : Changes (takingParts m) s (s.takeProbe m rec) := by
  unfold takeProbe
  split
  · exact (refuseProbe_changes s m rec _).mono (by simp)
  · exact ((modIntake_changes _ m _).mono (by simp)).trans ((modStation_changes s _ _).mono (by simp))

theorem takeHead_changes : Changes (takingParts m) s (s.takeHead m rec) := by
  have popped := (popQueue_changes s m).mono (l' := takingParts m) (by simp)
  unfold takeHead
  split
  · exact (stopMalformed_changes s m rec).mono (by simp)
  · exact (takeBlock_changes _ m rec).trans popped
  · exact (takeProbe_changes _ m rec).trans popped

/-- A taking touches the queue of the slot served alone (R83). -/
theorem takeRecord_changes : s.takeRecord = s ∨ ∃ m : Slot, Changes (takingParts m) s s.takeRecord := by
  unfold takeRecord
  split
  · exact .inl rfl
  next m _ =>
    split
    · exact .inl rfl
    next rec _ _ => exact .inr ⟨m, takeHead_changes s m rec⟩

end Intake

/-! ### Readers and flags -/

theorem popNotice_changes : Changes [.notices] s (s.popNotice m).1 := by
  have popped (f : Context → Context) (hf : ∀ c, (f c).range = c.range ∧ (f c).capture = c.capture ∧ (f c).intake = c.intake
      ∧ (f c).request = c.request ∧ (f c).attention.enables = c.attention.enables) (u : State) :
      Changes [.notices] u (u.modCtx m f) := by
    obtain ⟨hrange, hcapture, hintake, hrequest, henables⟩ := hf (u.ctx m)
    apply Changes.of_modCtx <;> simp [*]
  unfold popNotice
  dsimp only
  split
  · split
    · exact (popped _ (fun _ => by simp) _).trans (popped _ (fun _ => by simp) s)
    · exact popped _ (fun _ => by simp) s
  · exact popped _ (fun _ => by simp) s

theorem readCursor_changes : Changes [] s (s.readCursor m).1 := by
  unfold readCursor
  dsimp only
  split
  · exact .refl _ s
  · exact .refl _ s
  · exact .refl _ s
  · split
    · exact modReader_changes s m fun _ => rfl
    · exact .refl _ s

theorem moveCursor_changes (v : Nat) : Changes [] s (s.moveCursor m v) := by
  unfold moveCursor
  dsimp only
  split
  · exact .refl _ s
  · exact .refl _ s
  · split
    · exact modReader_changes s m fun _ => rfl
    · exact .refl _ s
  · split
    · exact modReader_changes s m fun _ => rfl
    · exact .refl _ s

theorem clearOverflow_changes : Changes [] s (s.clearOverflow m) :=
  modReader_changes s m (f := fun r => { r with overflow := false }) fun _ => rfl

/-- A write to the flags word leaves CLOSED (R143). -/
theorem writeFlags_changes (v : Word) : Changes [] s (s.writeFlags m v) :=
  modAttention_changes s m (fun a => a.clearOnes_enables _) fun a => by
    rw [Attention.getLsbD_clearOnes a _ (by decide)]
    simp

/-- A poll leaves CLOSED (R144). -/
theorem polled_changes : Changes [] s (s.modAttention m Attention.polled) :=
  modAttention_changes s m (fun a => a.polled_enables) fun a => by
    cases hr : a.reported with
    | none => simp [Attention.polled, hr]
    | some cause =>
      rw [Attention.polled_of_reported _ hr]
      split
      next => rfl
      next hne =>
        rw [Attention.getLsbD_clear a _ (by decide)]
        cases cause <;> simp_all [Cause.index]

theorem writeEnables_changes (v : Word) : Changes [.enables m] s (s.writeEnables m v) := by
  apply Changes.of_modCtx <;> simp [Context.noticePart]

theorem storeStaging_changes (k : Fin 8) (v : Word) : Changes [.staging m] s (s.storeStaging m k v) :=
  modIntake_changes_staging s m fun _ => rfl

theorem storeArg_changes (k : Fin 7) (v : Word) : Changes [.request m] s (s.storeArg m k v) :=
  modRequest_changes s m rfl

theorem enrolled_changes (b : Bool) : Changes [] s (s.modReader m fun r => { r with enrolled := b }) :=
  modReader_changes s m (f := fun r => { r with enrolled := b }) fun _ => rfl

theorem setCursor_changes (c : Cursor) : Changes [] s (s.setCursor m c) := modReader_changes s m fun _ => rfl

/-! ### CONTEXT RESET -/

/-- The parts that a context reset of slot m may touch. -/
abbrev contextParts (m : Slot) : List Part :=
  [.timebase, .stations, .windows, .notices, .range m, .capture m, .staging m, .intake m, .request m, .flight m,
    .enables m]

theorem disableRange_changes :
    Changes [.stations, .windows, .notices, .range m] s (s.disableRange m) :=
  ((setRangeEntry_changes _ m none).mono (by simp)).trans
    ((Changes.foldl id (fun t n => leaveService_changes t n Station.contextReset) _ s).mono (by simp))

theorem cancelSetTime_changes : Changes [.timebase] s (s.cancelSetTime m) := by
  unfold cancelSetTime
  split
  · exact withTimebase_changes s _
  · exact .refl _ s

theorem resetShares_changes :
    Changes [.notices, .capture m, .staging m, .intake m, .request m, .flight m, .enables m] s
      (s.modCtx m Context.resetShares) := by
  apply Changes.of_modCtx <;> simp [Context.resetShares]

theorem postResult_changes (code : BitVec 8) (st : Status) (v : Values) :
    Changes [.request m, .flight m] s (s.postResult m code st v) :=
  ((raise_changes _ m (by decide)).mono (by simp)).trans (modRequest_changes_flight s m _)

theorem resetContext_changes : Changes (contextParts m) s (s.resetContext m) :=
  ((postResult_changes _ m _ _ _).mono (by simp)).trans <|
    ((cancelSetTime_changes _ m).mono (by simp)).trans <|
      ((disableRange_changes _ m).mono (by simp)).trans <|
        ((Changes.of_windowStep (releaseAll_step _ m)).mono (by simp)).trans <|
          (resetShares_changes s m).mono (by simp)

/-! ### Requests -/

theorem mode_changes (p : PartState) : Changes [.mode] s { s with part := p } := by
  intro q hq
  cases q with
  | mode => simp at hq
  | _ => simp [Part.Same, ctx, inReset]

theorem params_changes (p : Params) : Changes [.params] s { s with params := p } := by
  intro q hq
  cases q with
  | params => simp at hq
  | _ => simp [Part.Same, ctx, inReset]

section Requests

variable {s m} (h : (s.ctx m).request.inFlight = false)
include h

/-- The completion of a request with nothing else done (R159). -/
theorem completeBare_changes (st : Status) : Changes [.request m] s (s.completeBare m st) := complete_changes s m h st _

theorem requestSetTime_changes : Changes [.request m, .flight m, .timebase] s (s.requestSetTime m) := by
  have bare (st : Status) := (completeBare_changes h st).mono (l' := [.request m, .flight m, .timebase]) (by simp)
  unfold requestSetTime
  split
  · exact bare _
  · exact bare _
  · exact bare _
  · exact bare _
  · split
    · exact bare _
    · exact ((modRequest_changes_flight _ m _).mono (by simp)).trans ((withTimebase_changes s _).mono (by simp))

theorem requestReacquire_changes : Changes [.request m, .timebase] s (s.requestReacquire m) := by
  unfold requestReacquire
  split
  · exact then_complete (withTimebase_changes s _) (by simp) h _ _
  · exact (completeBare_changes h _).mono (by simp)

theorem requestSetRange_changes : Changes [.request m, .range m] s (s.requestSetRange m) := by
  have bare (st : Status) := (completeBare_changes h st).mono (l' := [.request m, .range m]) (by simp)
  unfold requestSetRange
  split
  · exact bare _
  · split
    · exact bare _
    · split
      · exact bare _
      · exact then_complete (setRangeEntry_changes s m _) (by simp) h _ _

/-- An owner request does one of its two refusals or what it does with a station of the caller (R26). -/
theorem ownerRequest_changes {l : List Part} {act : StationNo → State} (hl : .request m ∈ l)
    (hact : ∀ n, s.owns m n = true → Changes l s (act n)) : Changes l s (s.ownerRequest m act) := by
  have bare (st : Status) := (completeBare_changes h st).mono (l' := l) (by simpa using hl)
  unfold ownerRequest
  split
  · exact bare _
  · split
    next hown => exact hact _ hown
    · exact bare _

theorem requestEnableStation_changes : Changes [.request m, .stations] s (s.requestEnableStation m) :=
  ownerRequest_changes h (by simp) fun n _ => by
    split
    · exact then_complete (modStation_changes s n _) (by simp) h _ _
    · exact (completeBare_changes h _).mono (by simp)

theorem requestDisableStation_changes :
    Changes [.request m, .stations, .windows, .notices] s (s.requestDisableStation m) :=
  ownerRequest_changes h (by simp) fun n _ => by
    split
    · exact (completeBare_changes h _).mono (by simp)
    · exact then_complete (leaveService_changes s n _) (by simp) h _ _

theorem requestConfigureStation_changes : Changes [.request m, .stations] s (s.requestConfigureStation m) :=
  ownerRequest_changes h (by simp) fun n _ => by
    split
    · exact (completeBare_changes h _).mono (by simp)
    · split
      · exact then_complete (modStation_changes s n _) (by simp) h _ _
      · exact then_complete (modStation_changes s n _) (by simp) h _ _

theorem requestClearCounters_changes : Changes [.request m, .stations] s (s.requestClearCounters m) :=
  ownerRequest_changes h (by simp) fun n _ => then_complete (modStation_changes s n _) (by simp) h _ _

theorem requestIntakeReset_changes : Changes [.request m, .staging m, .intake m] s (s.requestIntakeReset m) :=
  then_complete ((clearHold_changes _ m).trans (modIntake_changes s m _)) (by simp) h _ _

theorem requestSetThreshold_changes : Changes [.request m, .staging m, .intake m] s (s.requestSetThreshold m) := by
  unfold requestSetThreshold
  split
  · exact then_complete (modIntake_changes s m _) (by simp) h _ _
  · exact (completeBare_changes h _).mono (by simp)

theorem requestEnrol_changes : Changes [.request m] s (s.requestEnrol m) :=
  then_complete (enrolled_changes s m true) (by simp) h _ _

theorem requestWithdraw_changes : Changes [.request m, .windows, .notices] s (s.requestWithdraw m) := by
  unfold requestWithdraw
  split
  · exact then_complete ((Changes.of_windowStep (releaseAll_step _ m)).trans
      ((enrolled_changes s m false).mono (by simp))) (by simp) h _ _
  · exact (completeBare_changes h _).mono (by simp)

theorem requestOpenCursor_changes : Changes [.request m] s (s.requestOpenCursor m) := by
  have put (c : Cursor) (st : Status) (v : Values) : Changes [.request m] s ((s.setCursor m c).complete m st v) :=
    then_complete (setCursor_changes s m c) (by simp) h st v
  unfold requestOpenCursor
  split
  · unfold openWindowCursor
    split
    · split
      · exact put _ _ _
      · exact put _ _ _
    · exact put _ _ _
  · split
    · exact put _ _ _
    · exact completeBare_changes h _
  · exact completeBare_changes h _

theorem requestRelease_changes : Changes [.request m, .windows, .notices] s (s.requestRelease m) := by
  have bare (st : Status) := (completeBare_changes h st).mono (l' := [.request m, .windows, .notices]) (by simp)
  unfold requestRelease
  split
  · exact bare _
  · split
    · exact bare _
    · split
      · exact then_complete (Changes.of_windowStep (releaseWindow_step s m _)) (by simp) h _ _
      · exact bare _

theorem requestStart_changes : Changes [.request m, .mode, .windows, .notices] s (s.requestStart m) := by
  have bare (st : Status) := (completeBare_changes h st).mono (l' := [.request m, .mode, .windows, .notices]) (by simp)
  unfold requestStart
  split
  · exact bare _
  · split
    · exact bare _
    · split
      · exact bare _
      · exact then_complete (((Changes.of_windowStep ((openWindow_step _ _).trans (openWindow_step _ _))).mono
          (by simp)).trans ((mode_changes s .run).mono (by simp))) (by simp) h _ _

theorem requestHalt_changes : Changes [.request m, .mode, .windows, .notices] s (s.requestHalt m) := by
  unfold requestHalt
  split
  · exact then_complete (((mode_changes s.flushAll .setup).mono (by simp)).trans
      ((Changes.of_windowStep (flushAll_step s)).mono (by simp))) (by simp) h _ _
  · exact (completeBare_changes h _).mono (by simp)

theorem requestSetParameter_changes : Changes [.request m, .params] s (s.requestSetParameter m) := by
  have bare (st : Status) (v : Values) := (complete_changes s m h st v).mono (l' := [.request m, .params]) (by simp)
  unfold requestSetParameter
  dsimp only
  split
  · exact bare _ _
  · split
    · exact bare _ _
    · split
      · exact bare _ _
      · split
        · exact then_complete (params_changes s _) (by simp) h _ _
        · exact bare _ _

end Requests

end State

/-! ### Commands -/

/-- What the owning block of a command does with the state, the protocol of the transaction apart. Commands that touch none
of the parts, and those that stand for a word's own command (log 9, log 22), do nothing here. -/
def act : Instr → State → State
  | .oscillatorCycle, s => s.takeCycle
  | .slewRemainderEnd, s => s.takeSlewEnd
  | .refPulse _, s => s.takePulse
  | .armedExpiry, s => s.takeArmedExpiry
  | .missingPulseEvent, s => s.takeMissingPulse
  | .boundaryEvent, s => s.takeBoundary
  | .expiryEvent, s => s.takeExpiry
  | .scanEvent, s => s.takeScan
  | .capturePulse m _, s => s.takeCapture m
  | .fullReset line, s => (State.fullResetValues s.straps s.resetPin s.busReset s.pending).setResetLine line true
  | .commit m v, s => s.commitWord m v
  | .recordTaking, s => s.takeRecord
  | .noticePop m, s => (s.popNotice m).1
  | .setTime m, s => s.requestSetTime m
  | .reacquire m, s => s.requestReacquire m
  | .readTime m, s => s.requestReadTime m
  | .setRange m, s => s.requestSetRange m
  | .enableStation m, s => s.requestEnableStation m
  | .disableStation m, s => s.requestDisableStation m
  | .configureStation m, s => s.requestConfigureStation m
  | .clearCounters m, s => s.requestClearCounters m
  | .intakeReset m, s => s.requestIntakeReset m
  | .setThreshold m, s => s.requestSetThreshold m
  | .enrol m, s => s.requestEnrol m
  | .withdraw m, s => s.requestWithdraw m
  | .openCursor m, s => s.requestOpenCursor m
  | .release m, s => s.requestRelease m
  | .start m, s => s.requestStart m
  | .halt m, s => s.requestHalt m
  | .setParameter m, s => s.requestSetParameter m
  | .contextReset m _, s => s.resetContext m
  | .fullResetEnd _ _, s | .addressParityError _ _ _, s | .registerWrite _ _ _ _, s | .busErrorClear _ _, s
  | .overflowClear _ _, s | .cursorRead _, s | .cursorPositionWrite _ _, s | .flagsWordWrite _ _, s
  | .enableMaskWrite _ _, s | .pollRead _, s | .unknownRequestCode _ _, s | .requestSlotRetry _ _, s => s

/-- The slot whose request slot must be IDLE for a request to be taken from it (R158, R160). -/
def requester : Instr → Option Slot
  | .setTime m | .reacquire m | .readTime m | .setRange m | .enableStation m | .disableStation m
  | .configureStation m | .clearCounters m | .intakeReset m | .setThreshold m | .enrol m | .withdraw m
  | .openCursor m | .release m | .start m | .halt m | .setParameter m => some m
  | _ => none

/-- The request slot that a request is taken from is IDLE. -/
def State.IdleFor (s : State) (c : Instr) : Prop := ∀ m ∈ requester c, (s.ctx m).request.inFlight = false

/-- The parts that the act of a command may touch, full resets apart. -/
def touches : Instr → List Part
  | .oscillatorCycle => State.cycleParts
  | .slewRemainderEnd | .missingPulseEvent => [.timebase]
  | .refPulse _ => .timebase :: .stations :: Part.requests
  | .armedExpiry => .timebase :: Part.requests
  | .boundaryEvent | .scanEvent => [.timebase, .stations, .windows, .notices]
  | .expiryEvent => [.timebase, .windows, .notices]
  | .capturePulse m _ => [.capture m]
  | .fullReset _ => []
  | .commit m _ => [.staging m, .intake m]
  | .recordTaking => (List.finRange 4).flatMap fun m => State.takingParts m
  | .noticePop _ => [.notices]
  | .setTime m => [.request m, .flight m, .timebase]
  | .reacquire m => [.request m, .timebase]
  | .setRange m => [.request m, .range m]
  | .enableStation m | .configureStation m | .clearCounters m => [.request m, .stations]
  | .disableStation m => [.request m, .stations, .windows, .notices]
  | .intakeReset m | .setThreshold m => [.request m, .staging m, .intake m]
  | .readTime m | .enrol m | .openCursor m => [.request m]
  | .withdraw m | .release m => [.request m, .windows, .notices]
  | .start m | .halt m => [.request m, .mode, .windows, .notices]
  | .setParameter m => [.request m, .params]
  | .contextReset m _ => State.contextParts m
  | .fullResetEnd _ _ | .addressParityError _ _ _ | .registerWrite _ _ _ _ | .busErrorClear _ _ | .overflowClear _ _
  | .cursorRead _ | .cursorPositionWrite _ _ | .flagsWordWrite _ _ | .enableMaskWrite _ _ | .pollRead _
  | .unknownRequestCode _ _ | .requestSlotRetry _ _ => []

theorem act_changes {c : Instr} {s : State} (hc : isFullReset c = false) (h : s.IdleFor c) :
    Changes (touches c) s (act c s) := by
  have idle {m : Slot} (hm : requester c = some m) : (s.ctx m).request.inFlight = false := h m hm
  cases c with
  | oscillatorCycle => exact s.takeCycle_changes
  | slewRemainderEnd => exact s.takeSlewEnd_changes
  | refPulse _ => exact s.takePulse_changes
  | armedExpiry => exact s.takeArmedExpiry_changes
  | missingPulseEvent => exact s.takeMissingPulse_changes
  | boundaryEvent => exact s.takeBoundary_changes
  | expiryEvent => exact s.takeExpiry_changes
  | scanEvent => exact s.takeScan_changes
  | capturePulse m _ => exact s.takeCapture_changes m
  | fullReset _ => cases hc
  | commit m v => exact s.commitWord_changes m v
  | recordTaking =>
    rcases s.takeRecord_changes with hs | ⟨m, hm⟩
    · rw [act, hs]
      exact .refl _ s
    · exact hm.mono fun p hp => List.mem_flatMap.mpr ⟨m, List.mem_finRange m, hp⟩
  | noticePop m => exact s.popNotice_changes m
  | setTime m => exact State.requestSetTime_changes (idle rfl)
  | reacquire m => exact State.requestReacquire_changes (idle rfl)
  | readTime m => exact s.complete_changes m (idle rfl) _ _
  | setRange m => exact State.requestSetRange_changes (idle rfl)
  | enableStation m => exact State.requestEnableStation_changes (idle rfl)
  | disableStation m => exact State.requestDisableStation_changes (idle rfl)
  | configureStation m => exact State.requestConfigureStation_changes (idle rfl)
  | clearCounters m => exact State.requestClearCounters_changes (idle rfl)
  | intakeReset m => exact State.requestIntakeReset_changes (idle rfl)
  | setThreshold m => exact State.requestSetThreshold_changes (idle rfl)
  | enrol m => exact State.requestEnrol_changes (idle rfl)
  | withdraw m => exact State.requestWithdraw_changes (idle rfl)
  | openCursor m => exact State.requestOpenCursor_changes (idle rfl)
  | release m => exact State.requestRelease_changes (idle rfl)
  | start m => exact State.requestStart_changes (idle rfl)
  | halt m => exact State.requestHalt_changes (idle rfl)
  | setParameter m => exact State.requestSetParameter_changes (idle rfl)
  | contextReset m _ => exact s.resetContext_changes m
  | fullResetEnd _ _ | addressParityError _ _ _ | registerWrite _ _ _ _ | busErrorClear _ _ | overflowClear _ _
  | cursorRead _ | cursorPositionWrite _ _ | flagsWordWrite _ _ | enableMaskWrite _ _ | pollRead _
  | unknownRequestCode _ _ | requestSlotRetry _ _ => exact .refl _ s

/-- The value of a code word write names a request, CONTEXT RESET, or nothing (R158, R177). -/
theorem requestOf_cases (m : Slot) (v : Word) :
    (∃ c : Instr, requester c = some m ∧ sender c = some m ∧ ∀ t : State, t.requestOf m v = act c t)
      ∨ (∀ t : State, t.requestOf m v = t.resetContext m)
      ∨ ∀ t : State, t.requestOf m v = t.completeBare m .badArg := by
  by_cases hnamed : 1 ≤ v.toNat ∧ v.toNat ≤ 18
  · obtain ⟨hlow, hhigh⟩ := hnamed
    unfold State.requestOf
    generalize v.toNat = k at *
    interval_cases k
    on_goal 18 => exact .inr (.inl fun _ => rfl)
    all_goals left
    exacts [⟨.setTime m, rfl, rfl, fun _ => rfl⟩, ⟨.reacquire m, rfl, rfl, fun _ => rfl⟩,
      ⟨.readTime m, rfl, rfl, fun _ => rfl⟩, ⟨.setRange m, rfl, rfl, fun _ => rfl⟩,
      ⟨.enableStation m, rfl, rfl, fun _ => rfl⟩, ⟨.disableStation m, rfl, rfl, fun _ => rfl⟩,
      ⟨.configureStation m, rfl, rfl, fun _ => rfl⟩, ⟨.clearCounters m, rfl, rfl, fun _ => rfl⟩,
      ⟨.intakeReset m, rfl, rfl, fun _ => rfl⟩, ⟨.setThreshold m, rfl, rfl, fun _ => rfl⟩,
      ⟨.enrol m, rfl, rfl, fun _ => rfl⟩, ⟨.withdraw m, rfl, rfl, fun _ => rfl⟩,
      ⟨.openCursor m, rfl, rfl, fun _ => rfl⟩, ⟨.release m, rfl, rfl, fun _ => rfl⟩,
      ⟨.start m, rfl, rfl, fun _ => rfl⟩, ⟨.halt m, rfl, rfl, fun _ => rfl⟩,
      ⟨.setParameter m, rfl, rfl, fun _ => rfl⟩]
  · refine .inr (.inr fun t => ?_)
    unfold State.requestOf
    split
    case h_19 => rfl
    all_goals omega

/-- What a transaction of a slot, or an event, may change around the act of its owning block: nothing that an invariant
speaks of. -/
def edges : Option Slot → List Part
  | some m => [.request m, .staging m, .enables m]
  | none => [.lines]

/-- A full reset is no slot's transaction (R173). -/
theorem not_isFullReset_of_sender {c : Instr} {m : Slot} (hm : sender c = some m) : isFullReset c = false := by
  cases c with
  | fullReset line => cases hm
  | _ => rfl

/-- From s to t, sent by a slot or by none, nothing but edges has changed, or the act of one command, no full reset, with
edges before and after it. -/
def Acted (sent : Option Slot) (s t : State) : Prop :=
  Changes (edges sent) s t
    ∨ ∃ (c : Instr) (u : State), sender c = sent ∧ isFullReset c = false ∧ Changes (edges sent) s u ∧ u.IdleFor c
        ∧ Changes (edges sent) (act c u) t

namespace Acted

variable {s t : State} {m : Slot}

theorem of_changes {sent : Option Slot} (h : Changes [] s t) : Acted sent s t := .inl (h.mono (by simp))

/-- An act that is not a request's. -/
theorem of_act {c : Instr} (hc : requester c = none) (hf : isFullReset c = false) (s : State) :
    Acted (sender c) s (act c s) :=
  .inr ⟨c, s, rfl, hf, .refl _ s, by simp [State.IdleFor, hc], .refl _ _⟩

theorem answer {sent : Option Slot} (h : Acted sent s t) (r : Response) (d : Option Word) :
    Acted sent s (t.answer r d) := by
  have answered := (State.answer_changes t r d).mono (l' := edges sent) (by simp)
  rcases h with h | ⟨c, u, hc, hf, hu, hidle, ht⟩
  · exact .inl (answered.trans h)
  · exact .inr ⟨c, u, hc, hf, hu, hidle, answered.trans ht⟩

theorem onEvent {f : State → State} (h : Acted none s (f s)) : Acted none s (s.onEvent f) := by
  unfold State.onEvent
  split
  · exact of_changes (.refl _ s)
  · exact h

theorem onBus {f : State → State} (h : Acted (some m) s (f s)) : Acted (some m) s (s.onBus f) := by
  unfold State.onBus
  split
  · exact (of_changes (.refl _ s)).answer _ _
  · exact h

/-- A code word write whose request is a command's act (R158). -/
theorem takeRequest {c : Instr} (hc : requester c = some m) (hm : sender c = some m) (v : Word) :
    Acted (some m) s (s.takeRequest m v (act c)) := by
  unfold State.takeRequest
  split
  · exact (of_changes (.refl _ s)).answer _ _
  next hf =>
    have noted := (State.noteCode_changes s m v).mono (l' := edges (some m)) (by simp [edges])
    refine (Acted.answer (.inr ⟨c, s.noteCode m v, hm, not_isFullReset_of_sender hm, noted, ?_, .refl _ _⟩) _ _)
    intro k hk
    rw [hc] at hk
    cases hk
    simpa using hf

/-- A code word write of CONTEXT RESET's code (R170). -/
theorem takeRequest_contextReset (way : ContextResetWay) (v : Word) :
    Acted (some m) s (s.takeRequest m v fun t => t.resetContext m) := by
  unfold State.takeRequest
  split
  · exact (of_changes (.refl _ s)).answer _ _
  · have noted := (State.noteCode_changes s m v).mono (l' := edges (some m)) (by simp [edges])
    exact Acted.answer (.inr ⟨.contextReset m way, s.noteCode m v, rfl, rfl, noted, by simp [State.IdleFor, requester],
      .refl _ _⟩) _ _

/-- A code word write of a value that names no request (R177). -/
theorem takeRequest_badArg (v : Word) : Acted (some m) s (s.takeRequest m v fun t => t.completeBare m .badArg) := by
  unfold State.takeRequest
  split
  · exact (of_changes (.refl _ s)).answer _ _
  next hf =>
    have noted := (State.noteCode_changes s m v).mono (l' := edges (some m)) (by simp [edges])
    have hidle : ((s.noteCode m v).ctx m).request.inFlight = false := by simpa using hf
    exact Acted.answer (.inl (((State.completeBare_changes hidle _).mono (by simp [edges])).trans noted)) _ _

theorem onRequest {c : Instr} (hc : requester c = some m) (hm : sender c = some m) (code : Word) :
    Acted (some m) s (s.onRequest m code (act c)) := onBus (takeRequest hc hm code)

/-- A write of any value to the code word (R158, R177). -/
theorem writeCode (v : Word) : Acted (some m) s (s.writeCode m v) := by
  rcases requestOf_cases m v with ⟨c, hc, hm, hv⟩ | hv | hv
  · rw [State.writeCode, funext hv]
    exact takeRequest hc hm v
  · rw [State.writeCode, funext hv]
    exact takeRequest_contextReset .codeWord v
  · rw [State.writeCode, funext hv]
    exact takeRequest_badArg v

end Acted

end Sys2Proof.Machine

/-! PROOFS. Every command is one act within its edges; what that gives at once: the isolation of the slots (R150), and one
principle for the invariants. -/

namespace Sys2Proof.Machine

namespace Acted

variable {s : State} {m : Slot}

theorem changed {sent : Option Slot} {t : State} {l : List Part} (h : Changes l s t) (hl : l ⊆ edges sent) :
    Acted sent s t := .inl (h.mono hl)

theorem writeWord (offset : Nat) (v : Word) : Acted (some m) s (s.writeWord offset m v) := by
  have quiet {t : State} (h : Changes [] s t) : Acted (some m) s (t.answer .ok none) := (of_changes h).answer _ _
  unfold State.writeWord
  split_ifs
  · exact quiet fun p _ => by cases p <;> simp [Part.Same, State.ctx, State.inReset]
  · exact (changed (State.storeStaging_changes s m _ v) (by simp [edges])).answer _ _
  · exact of_act (c := .commit m v) rfl rfl s
  · exact writeCode v
  · exact (changed (State.storeArg_changes s m _ v) (by simp [edges])).answer _ _
  · exact (of_act (c := .contextReset m (.resetWord v)) rfl rfl s).answer _ _
  · exact quiet (State.modReader_changes s m fun _ => rfl)
  · exact quiet (State.moveCursor_changes s m _)
  · exact quiet (State.writeFlags_changes s m v)
  · exact (changed (State.writeEnables_changes s m v) (by simp [edges])).answer _ _
  · exact quiet (.refl _ s)

theorem recordBusError_changes (s : State) (kind : ParityKind) (address : WordAddress) (m : Slot) (d : Direction) :
    Changes [] s (s.recordBusError kind address m d) :=
  fun p _ => by cases p <;> simp [Part.Same, State.recordBusError, State.ctx, State.inReset]

theorem writeTransaction (address : WordAddress) (v : Word) (lanes : BitVec 4) :
    Acted (some m) s (s.writeTransaction address m v lanes) := by
  unfold State.writeTransaction
  split
  · split
    · exact writeWord _ v
    · exact (of_changes (recordBusError_changes s _ _ m _)).answer _ _
  · exact (of_changes (.refl _ s)).answer _ _

theorem checkAddress (address : WordAddress) (d : Direction) (parity : Bool) :
    Acted (some m) s (s.checkAddress address m d parity) := by
  rcases s.checkAddress_cases address m d parity with ⟨-, h⟩ | ⟨-, -, h⟩ | ⟨-, -, h⟩ <;> rw [h]
  · exact (of_changes (.refl _ s)).answer _ _
  · exact of_changes (.refl _ s)
  · exact (of_changes (recordBusError_changes s _ _ m _)).answer _ _

end Acted

/-- A change of the reset lines and the latched straps. -/
theorem lines_changes (s : State) (straps : Straps) (pin bus : Bool) :
    Changes [.lines] s { s with straps := straps, resetPin := pin, busReset := bus } := by
  intro p hp
  cases p with
  | lines => simp at hp
  | _ => simp [Part.Same, State.ctx]

theorem setResetLine_changes (s : State) (line : ResetLine) (b : Bool) : Changes [.lines] s (s.setResetLine line b) := by
  cases line
  · exact lines_changes s s.straps b s.busReset
  · exact lines_changes s s.straps s.resetPin b

section Exec

variable {c : Instr} {s t : State} (hnext : exec c s = .next t)
include hnext

/-- A command that is an event. -/
theorem acted_of_event (hf : isFullReset c = false) (hc : requester c = none) (hm : sender c = none)
    (hexec : exec c s = .next (s.onEvent (act c))) : Acted (sender c) s t := by
  rw [hexec] at hnext
  cases hnext
  have hact := Acted.of_act hc hf s
  rw [hm] at hact ⊢
  exact .onEvent hact

/-- An event of the board, which is taken when its strap selects it (R3, R44). -/
theorem acted_of_edge {selected : State → Prop} [DecidablePred selected] (hf : isFullReset c = false)
    (hc : requester c = none) (hm : sender c = none)
    (hexec : exec c s = .next (s.onEvent fun s => if selected s then act c s else s)) : Acted (sender c) s t := by
  rw [hexec] at hnext
  cases hnext
  have hact := Acted.of_act hc hf s
  rw [hm] at hact ⊢
  refine .onEvent ?_
  split
  · exact hact
  · exact .of_changes (.refl _ s)

/-- A request by its code. -/
theorem acted_of_request {m : Slot} {code : Word} (hc : requester c = some m) (hm : sender c = some m)
    (hexec : exec c s = .next (s.onRequest m code (act c))) : Acted (sender c) s t := by
  rw [hexec] at hnext
  cases hnext
  rw [hm]
  exact .onRequest hc hm code

/-- Another transaction, whose effect is an act or touches edges alone. -/
theorem acted_of_transaction {m : Slot} {f : State → State} (hm : sender c = some m)
    (hf : Acted (some m) s (f s)) (hexec : exec c s = .next (s.onBus f)) : Acted (sender c) s t := by
  rw [hexec] at hnext
  cases hnext
  rw [hm]
  exact .onBus hf

/-- Every command but a full reset is the act of one command within the edges of its sender. -/
theorem exec_acted (hc : isFullReset c = false) : Acted (sender c) s t := by
  have edge {m : Slot} {l : List Part} {u : State} (h : Changes l s u) (hl : l ⊆ edges (some m)) (r : Response)
      (d : Option Word) : Acted (some m) s (u.answer r d) := (Acted.changed h hl).answer r d
  cases c with
  | oscillatorCycle | slewRemainderEnd | armedExpiry | missingPulseEvent | boundaryEvent | expiryEvent | scanEvent
  | recordTaking => exact acted_of_event hnext rfl rfl rfl rfl
  | refPulse edge => exact acted_of_edge (selected := fun s => edge = s.straps.refEdge) hnext rfl rfl rfl rfl
  | capturePulse m edge => exact acted_of_edge (selected := fun s => edge = s.straps.captureEdge) hnext rfl rfl rfl rfl
  | fullReset line => cases hc
  | fullResetEnd line straps =>
    cases hnext
    refine .inl ?_
    split
    · exact (lines_changes _ straps _ _).trans (setResetLine_changes s line false)
    · exact setResetLine_changes s line false
  | addressParityError address m direction => exact acted_of_transaction hnext rfl (.checkAddress _ _ _) rfl
  | registerWrite address m value lanes => exact acted_of_transaction hnext rfl (.writeTransaction _ _ _) rfl
  | busErrorClear m value =>
    exact acted_of_transaction hnext rfl (edge (l := []) (u := { s with busError := none })
      (fun p _ => by cases p <;> simp [Part.Same, State.ctx, State.inReset]) (by simp) _ _) rfl
  | commit m value => exact acted_of_transaction hnext rfl (.of_act (c := .commit m value) rfl rfl s) rfl
  | noticePop m =>
    exact acted_of_transaction (f := fun s => State.answerRead (s.popNotice m)) hnext rfl
      ((Acted.of_act (c := .noticePop m) rfl rfl s).answer _ _) rfl
  | overflowClear m value =>
    exact acted_of_transaction hnext rfl (edge (s.clearOverflow_changes m) (by simp) _ _) rfl
  | cursorRead m => exact acted_of_transaction hnext rfl (edge (s.readCursor_changes m) (by simp) _ _) rfl
  | cursorPositionWrite m value => exact acted_of_transaction hnext rfl (edge (s.moveCursor_changes m _) (by simp) _ _) rfl
  | flagsWordWrite m value => exact acted_of_transaction hnext rfl (edge (s.writeFlags_changes m _) (by simp) _ _) rfl
  | enableMaskWrite m value =>
    exact acted_of_transaction hnext rfl (edge (s.writeEnables_changes m _) (by simp [edges]) _ _) rfl
  | pollRead m => exact acted_of_transaction hnext rfl (edge (s.polled_changes m) (by simp) _ _) rfl
  | setTime m | reacquire m | readTime m | setRange m | enableStation m | disableStation m | configureStation m
  | clearCounters m | intakeReset m | setThreshold m | enrol m | withdraw m | openCursor m | release m | start m | halt m
  | setParameter m => exact acted_of_request hnext rfl rfl rfl
  | contextReset m way =>
    cases way with
    | codeWord => exact acted_of_transaction hnext rfl (.takeRequest_contextReset .codeWord 18) rfl
    | resetWord value =>
      exact acted_of_transaction (f := fun s => (s.resetContext m).answer .ok none) hnext rfl
        ((Acted.of_act (c := .contextReset m (.resetWord value)) rfl rfl s).answer _ _) rfl
  | unknownRequestCode m value | requestSlotRetry m value => exact acted_of_transaction hnext rfl (.writeCode value) rfl

end Exec

/-! ### The slots keep to their own context (R150) -/

/-- The parts that R150 keeps for slot k. -/
def ownParts (k : Slot) : List Part := [.range k, .capture k, .staging k, .intake k, .request k, .enables k]

/-- The act of one slot's command touches no part that R150 keeps for another. -/
theorem ownParts_disjoint_touches {c : Instr} {m k : Slot} (hm : sender c = some m) (hk : k ≠ m) :
    ∀ p ∈ ownParts k, p ∉ touches c := by
  cases c <;> cases hm <;> simp [ownParts, touches, hk]

theorem ownParts_disjoint_edges {m k : Slot} (hk : k ≠ m) : ∀ p ∈ ownParts k, p ∉ edges (some m) := by
  simp [ownParts, edges, hk]

/-- What a slot's transaction may change touches no part that R150 keeps for another slot. -/
theorem exec_changes_of_sender {c : Instr} {s t : State} {m k : Slot} (hm : sender c = some m) (hk : k ≠ m)
    (hnext : exec c s = .next t) : ∃ l : List Part, (∀ p ∈ ownParts k, p ∉ l) ∧ Changes l s t := by
  have hacted := exec_acted hnext (not_isFullReset_of_sender hm)
  rw [hm] at hacted
  have hedges := ownParts_disjoint_edges hk
  rcases hacted with h | ⟨c', u, hm', hreset, hu, hidle, ht⟩
  · exact ⟨_, hedges, h⟩
  · have hact := act_changes hreset hidle
    have htouch := ownParts_disjoint_touches hm' hk
    refine ⟨edges (some m) ++ touches c', fun p hp => by simp [hedges p hp, htouch p hp], ?_⟩
    exact (ht.mono (by simp)).trans ((hact.mono (by simp)).trans (hu.mono (by simp)))

/-- Settles O60: an act touches no other slot's parts, and neither do its edges. -/
theorem slotsKeepToTheirOwnContext : Obligations.SlotsKeepToTheirOwnContext := by
  intro c s t m k hm hk hnext
  obtain ⟨l, hl, hchanges⟩ := exec_changes_of_sender hm hk hnext
  have own (p : Part) (hp : p ∈ ownParts k) : p ∉ l := hl p hp
  exact ⟨hchanges.intake (own _ (by simp [ownParts])) (own _ (by simp [ownParts])),
    hchanges.capture (own _ (by simp [ownParts])), hchanges.request (own _ (by simp [ownParts])),
    hchanges.range (own _ (by simp [ownParts])), hchanges.enables (own _ (by simp [ownParts]))⟩

/-! ### The invariants -/

/-- A predicate of states that looks at some parts alone. -/
def RestsOn (P : State → Prop) (parts : Part → Bool) : Prop :=
  ∀ s t : State, (∀ p : Part, parts p = true → p.Same s t) → P s → P t

/-- What changes none of the parts that a predicate rests on keeps it. -/
theorem RestsOn.keep {P : State → Prop} {parts : Part → Bool} (hP : RestsOn P parts) {l : List Part} {s t : State}
    (h : Changes l s t) (hl : ∀ p ∈ l, parts p = false) (hs : P s) : P t :=
  hP s t (fun p hp => h p fun hm => by simp [hl p hm] at hp) hs

/-- An invariant that rests on no edge holds after every step, if it holds at a full reset and every act keeps it. -/
theorem step_keeps {P : State → Prop} {parts : Part → Bool} (hP : RestsOn P parts)
    (hedge : ∀ sent : Option Slot, ∀ p ∈ edges sent, parts p = false)
    (hreset : ∀ (s : State) (line : ResetLine), P (act (.fullReset line) s))
    (hact : ∀ (c : Instr) (s : State), isFullReset c = false → s.IdleFor c → P s → P (act c s))
    {s t : State} (hs : P s) (hnext : step s = .next t) : P t := by
  have hexec {c : Instr} {u : State} (hu : P u) (hnext : exec c u = .next t) : P t := by
    cases hc : isFullReset c
    · rcases exec_acted hnext hc with h | ⟨c', v, hm, hc', hv, hidle, ht⟩
      · exact hP.keep h (hedge _) hu
      · have hv := hP.keep hv (hedge _) hu
        exact hP.keep ht (hedge _) (hact c' v hc' hidle hv)
    · cases c with
      | fullReset line => cases hnext; exact hreset u line
      | _ => cases hc
  unfold step at hnext
  split at hnext
  · cases hnext; exact hs
  · exact hexec (hP s _ (fun p _ => by cases p <;> simp [Part.Same, State.ctx, State.inReset]) hs) hnext

end Sys2Proof.Machine

/-! PROOFS. The timing of the part stays good (R1 to R6, R9 to R11, R13, R168), and valid network time never decreases
(R1). -/

namespace Sys2Proof.Machine

/-! ### The Timebase's values -/

namespace Timebase

variable {t : Timebase} {p : Params} {e : Int}

/-- The end of a slew leaves P and the remainder 0 (R13). -/
theorem Good.slewEnd (h : t.Good) : ({ t with phasePart := 0, slewRemainder := 0 } : Timebase).Good := by
  obtain ⟨hus, hfrac, hfreq, -, hbad, hgood, hcounts, -, -, hdeadline, hflight, hsecond⟩ := h
  exact ⟨hus, hfrac, hfreq, by simp, hbad, hgood, hcounts, fun _ => rfl, fun _ => rfl, hdeadline, hflight, hsecond⟩

theorem Good.cycle (h : t.Good) : (t.cycle p).Good := by
  obtain ⟨-, -, hfreq, hphase, hbad, hgood, hcounts, hholdover, hslew, hdeadline, hflight, hsecond⟩ := h
  obtain ⟨hus, hfrac⟩ := t.advanceFine_bounds
  have hremainder : t.discipline ≠ .slewing → (t.cycle p).slewRemainder = 0 := fun hne => by
    rw [cycle_slewRemainder, if_neg hne]
    exact hslew hne
  rw [cycle_eq]
  exact ⟨by simpa using hus, by simpa using hfrac, hfreq, hphase, hbad, hgood, hcounts, hholdover, hremainder, hdeadline,
    hflight, hsecond⟩

/-- A measurement is taken while time is valid, and so the deadline it sets is one (R3, Table 1-1). -/
theorem Good.measure (h : t.Good) (hv : t.discipline.valid = true) : (t.measure p).Good := by
  obtain ⟨hus, hfrac, hfreq, hphase, hbad, hgood, ⟨-, hout, hmissing⟩, hholdover, hslew, -, hflight, hsecond⟩ := h
  refine ⟨hus, hfrac, hfreq, hphase, hbad, hgood, ⟨raise16_le _, ?_, hmissing⟩, hholdover, hslew, hv.symm, hflight,
    hsecond⟩
  simp only [Timebase.measure]
  split
  · exact hout
  · exact raise16_le _

/-- An error in window moves P by at most twice the trim limit, as the lock window is at most 1,000 µs (R8, Table 10-3). -/
theorem disciplineUpdate_phasePart_bounds (hp : p.Good) (he : inWindow p e = true) :
    -524288 ≤ (t.disciplineUpdate p e).phasePart ∧ (t.disciplineUpdate p e).phasePart ≤ 524288 := by
  obtain ⟨⟨-, hwindow⟩, -⟩ := hp
  have hwithin : e.natAbs ≤ 2 ^ 32 * 1000 := (inWindow_iff.mp he).trans (Nat.mul_le_mul_left _ hwindow)
  have hpow : (2 : Int) ^ 16 ≤ 2 ^ (16 + p.gp) := pow_le_pow_right₀ (by decide) (by omega)
  have hbounds := tdiv_bounds (a := e) (b := 125 * 2 ^ (16 + p.gp)) (m := 524288) (by omega) (by omega) (by omega)
  simp only [disciplineUpdate, truncDiv]
  omega

/-- The update of R8, with the discipline state that the pulse leaves. -/
theorem Good.disciplineUpdate (h : t.Good) (hp : p.Good) (he : inWindow p e = true) {d : Discipline} {good rest : Nat}
    (hd : d = .locked) (hv : t.discipline.valid = true) (hgood : good ≤ 3) (hrest : rest = 0) :
    ({ t.disciplineUpdate p e with discipline := d, goodRun := good, slewRemainder := rest } : Timebase).Good := by
  obtain ⟨hus, hfrac, -, -, -, -, hcounts, -, -, hdeadline, hflight, hsecond⟩ := h
  subst hd
  have harmed : t.discipline ≠ .armed := fun hd => by rw [hd] at hv; cases hv
  refine ⟨hus, hfrac, t.disciplineUpdate_freqPart_bounds p e, disciplineUpdate_phasePart_bounds (t := t) hp he,
    Nat.zero_le _, hgood, hcounts, by simp, fun _ => hrest, hdeadline.trans hv, hflight.trans (by simp [harmed]), hsecond⟩

theorem Good.enterHoldover (h : t.Good) (hv : t.discipline.valid = true) : t.enterHoldover.Good := by
  obtain ⟨hus, hfrac, hfreq, -, -, -, hcounts, -, -, hdeadline, hflight, hsecond⟩ := h
  have harmed : t.discipline ≠ .armed := fun hd => by rw [hd] at hv; cases hv
  exact ⟨hus, hfrac, hfreq, by simp, Nat.zero_le _, Nat.zero_le _, hcounts, fun _ => rfl, fun _ => rfl, hdeadline.trans hv,
    hflight.trans (by simp [harmed]), hsecond⟩

theorem Good.lockedPulse (h : t.Good) (hp : p.Good) (hd : t.discipline = .locked) : (t.lockedPulse p e).Good := by
  have hv : t.discipline.valid = true := by rw [hd]; rfl
  obtain ⟨hus, hfrac, hfreq, -, hbad, hgood, hcounts, -, hslew, hdeadline, hflight, hsecond⟩ := id h
  have hrest : t.slewRemainder = 0 := hslew (by simp [hd])
  unfold Timebase.lockedPulse
  split
  next hin => exact h.disciplineUpdate hp hin (good := t.goodRun) (rest := t.slewRemainder) hd hv hgood hrest
  · split
    · exact h.enterHoldover hv
    · exact ⟨hus, hfrac, hfreq, by simp, by simp only; omega, hgood, hcounts, fun _ => rfl, hslew, hdeadline, hflight,
        hsecond⟩

theorem Good.holdoverPulse (h : t.Good) (hp : p.Good) (hd : t.discipline = .holdover) : (t.holdoverPulse p e).Good := by
  have hv : t.discipline.valid = true := by rw [hd]; rfl
  obtain ⟨hus, hfrac, hfreq, hphase, hbad, -, hcounts, hholdover, hslew, hdeadline, hflight, hsecond⟩ := id h
  have hrest : t.slewRemainder = 0 := hslew (by simp [hd])
  have counted {n : Nat} (hn : n ≤ 3) : ({ t with goodRun := n } : Timebase).Good :=
    ⟨hus, hfrac, hfreq, hphase, hbad, hn, hcounts, hholdover, hslew, hdeadline, hflight, hsecond⟩
  unfold Timebase.holdoverPulse
  split
  next hin =>
    split
    · exact h.disciplineUpdate hp hin (good := 0) (rest := t.slewRemainder) rfl hv (by decide) hrest
    · exact counted (by omega)
  · exact counted (by decide)

theorem Good.slewingPulse (h : t.Good) (hp : p.Good) (hd : t.discipline = .slewing) : (t.slewingPulse p e).Good := by
  have hv : t.discipline.valid = true := by rw [hd]; rfl
  obtain ⟨hus, hfrac, hfreq, -, hbad, hgood, hcounts, -, -, hdeadline, hflight, hsecond⟩ := id h
  unfold Timebase.slewingPulse
  split
  next hin => exact h.disciplineUpdate hp hin (good := t.goodRun) (rest := 0) rfl hv hgood rfl
  · refine ⟨hus, hfrac, hfreq, ?_, hbad, hgood, hcounts, by simp [hd], by simp [hd], hdeadline, hflight, hsecond⟩
    have hsign : e.sign = -1 ∨ e.sign = 0 ∨ e.sign = 1 := by
      rcases lt_trichotomy e 0 with he | rfl | he
      · exact .inl (Int.sign_eq_neg_one_of_neg he)
      · exact .inr (.inl rfl)
      · exact .inr (.inr (Int.sign_eq_one_of_pos he))
    rcases hsign with he | he | he <;> simp only [he, trimLimit] <;> omega

/-- The time set fits network time, as N is at most 68,719,476,735 (R4, R5). -/
theorem Good.setTime {f : SetTimeInFlight} (h : t.Good) (hf : t.inFlight = some f) : (t.setTime f).Good := by
  obtain ⟨-, -, hfreq, -, -, -, hcounts, -, hslew, -, hflight, hsecond⟩ := h
  have hd : t.discipline = .armed := by simpa [hf] using hflight
  have hf : f.second ≤ maxSecond := hsecond f hf
  refine ⟨?_, by simp [Timebase.setTime, usUnits], hfreq, by simp [Timebase.setTime], Nat.zero_le _, Nat.zero_le _, hcounts,
    by simp, fun _ => hslew (by simp [hd]), rfl, rfl, by simp⟩
  simp only [setTime_us, million, maxUs, maxSecond] at *
  omega

theorem Good.disarm (h : t.Good) (hd : t.discipline = .armed) : t.disarm.Good := by
  obtain ⟨hus, hfrac, hfreq, hphase, hbad, hgood, hcounts, -, hslew, hdeadline, -, -⟩ := h
  refine ⟨hus, hfrac, hfreq, hphase, hbad, hgood, hcounts, by simp, fun _ => hslew (by simp [hd]), ?_, rfl, by simp⟩
  rw [hd] at hdeadline
  exact hdeadline

theorem Good.missPulse (h : t.Good) : t.missPulse.Good := by
  obtain ⟨hus, hfrac, hfreq, hphase, hbad, hgood, ⟨hpulses, hout, -⟩, hholdover, hslew, -, hflight, hsecond⟩ := id h
  have counted (hv : t.discipline.valid = true) : ({ t with
      missingPulses := raise16 t.missingPulses, deadline := some (t.us + 1000000) } : Timebase).Good :=
    ⟨hus, hfrac, hfreq, hphase, hbad, hgood, ⟨hpulses, hout, raise16_le _⟩, hholdover, hslew, hv.symm, hflight, hsecond⟩
  unfold Timebase.missPulse
  dsimp only
  split
  next hd => exact (counted (by rw [hd]; rfl)).enterHoldover (by rw [hd]; rfl)
  next hd => exact (counted (by rw [hd]; rfl)).enterHoldover (by rw [hd]; rfl)
  next hd =>
    obtain ⟨hus, hfrac, hfreq, hphase, hbad, -, hrest⟩ := counted (by rw [hd]; rfl)
    exact ⟨hus, hfrac, hfreq, hphase, hbad, Nat.zero_le _, hrest⟩
  · exact h
  · exact h

/-- SET TIME taken in FREE (R4). -/
theorem Good.arm (h : t.Good) (hd : t.discipline = .free) {f : SetTimeInFlight} (hf : f.second ≤ maxSecond) :
    ({ t with discipline := .armed, inFlight := some f } : Timebase).Good := by
  obtain ⟨hus, hfrac, hfreq, hphase, hbad, hgood, hcounts, -, hslew, hdeadline, -, -⟩ := h
  refine ⟨hus, hfrac, hfreq, hphase, hbad, hgood, hcounts, by simp, fun _ => hslew (by simp [hd]), ?_, by simp, ?_⟩
  · rw [hd] at hdeadline
    exact hdeadline
  · rintro g hg
    cases hg
    exact hf

/-- REACQUIRE taken in HOLDOVER (R12). -/
theorem Good.reacquire (h : t.Good) (hd : t.discipline = .holdover) :
    ({ t with discipline := .slewing, goodRun := 0, badRun := 0 } : Timebase).Good := by
  obtain ⟨hus, hfrac, hfreq, hphase, -, -, hcounts, -, -, hdeadline, hflight, hsecond⟩ := h
  rw [hd] at hdeadline hflight
  exact ⟨hus, hfrac, hfreq, hphase, Nat.zero_le _, Nat.zero_le _, hcounts, by simp, by simp, hdeadline, hflight, hsecond⟩

end Timebase

/-- A value that a parameter accepts keeps the parameters good (R168). -/
theorem Params.Good.assign {p : Params} (h : p.Good) {code v : Nat} (ha : p.accepts code v = true) :
    (p.assign code v).Good := by
  unfold Params.accepts at ha
  split at ha <;> simp_all [Params.assign, Params.Good]

/-! ### The timing of the part -/

namespace State

variable {s t : State} {m : Slot}

theorem setTimeInFlight_iff : s.setTimeInFlight m = true ↔ ∃ f, s.timebase.inFlight = some f ∧ f.slot = m := by
  simp [setTimeInFlight, Option.any_eq_true]

/-- The parts that the timing is made of. -/
def timingParts : Part → Bool
  | .timebase | .params | .flight _ => true
  | _ => false

theorem timingGood_restsOn : RestsOn State.TimingGood timingParts := by
  rintro s t hsame ⟨hparams, htime, hflights⟩
  have hp : t.params = s.params := hsame .params rfl
  have ht : t.timebase = s.timebase := hsame .timebase rfl
  refine ⟨hp ▸ hparams, ht ▸ htime, fun k => ?_⟩
  have hk : (t.ctx k).request.inFlight = (s.ctx k).request.inFlight := hsame (.flight k) rfl
  rw [hk, hflights k, setTimeInFlight, setTimeInFlight, ht]

/-- The timing stays good when the Timebase does, with the SET TIME in flight and the request slots as they were. -/
theorem TimingGood.of_timebase {l : List Part} (h : s.TimingGood) (hc : Changes l s t)
    (hl : ∀ p ∈ l, p ≠ .params ∧ ∀ k, p ≠ .flight k) (ht : t.timebase.Good)
    (hf : t.timebase.inFlight = s.timebase.inFlight) : t.TimingGood := by
  obtain ⟨hparams, -, hflights⟩ := h
  refine ⟨?_, ht, fun k => ?_⟩
  · rw [hc.params fun hm => (hl _ hm).1 rfl]
    exact hparams
  · rw [hc.inFlight fun hm => (hl _ hm).2 k rfl, hflights k, setTimeInFlight, setTimeInFlight, hf]

theorem TimingGood.withTimebase (h : s.TimingGood) {x : Timebase} (hx : x.Good)
    (hf : x.inFlight = s.timebase.inFlight) : (s.withTimebase x).TimingGood :=
  h.of_timebase (withTimebase_changes s x) (by simp) (by rwa [withTimebase_timebase]) (by rwa [withTimebase_timebase])

theorem inFlight_postResult (s : State) (m k : Slot) (code : BitVec 8) (st : Status) (v : Values) :
    ((s.postResult m code st v).ctx k).request.inFlight = if k = m then false else (s.ctx k).request.inFlight := by
  by_cases hk : k = m
  · subst hk
    simp [postResult, ctx_raise]
  · simp [postResult, ctx_raise, hk, modRequest, ctx_modCtx_of_ne hk]

/-- The SET TIME in flight ended: the Timebase lets it go, and the request of its slot is completed (R5, R6, R7). -/
theorem TimingGood.end_flight {f : SetTimeInFlight} (h : s.TimingGood) (hf : s.timebase.inFlight = some f)
    {l : List Part} {u : State} (hc : Changes l s u) (hl : ∀ p ∈ l, p ≠ .params ∧ ∀ k, p ≠ .flight k)
    (hu : u.timebase.Good) (hnone : u.timebase.inFlight = none) (code : BitVec 8) (st : Status) (v : Values) :
    (u.postResult f.slot code st v).TimingGood := by
  obtain ⟨hparams, -, hflights⟩ := h
  refine ⟨?_, hu, fun k => ?_⟩
  · rw [postResult_params, hc.params fun hm => (hl _ hm).1 rfl]
    exact hparams
  · rw [inFlight_postResult, setTimeInFlight, postResult_timebase, hnone]
    split
    · rfl
    next hk =>
      rw [hc.inFlight fun hm => (hl _ hm).2 k rfl, hflights k, setTimeInFlight, hf]
      simp [Ne.symm hk]

theorem armedPulse_timingGood (h : s.TimingGood) : s.armedPulse.TimingGood := by
  unfold armedPulse
  split
  next f hf =>
    have hset := h.2.1.setTime hf
    have hc : Changes [.stations, .timebase] s ((s.withTimebase (s.timebase.setTime f)).setArrivals (million * f.second)) :=
      ((modAllStations_changes _ _).mono (by simp)).trans ((withTimebase_changes s _).mono (by simp))
    have htime : ((s.withTimebase (s.timebase.setTime f)).setArrivals (million * f.second)).timebase =
        s.timebase.setTime f := withTimebase_timebase ..
    exact h.end_flight hf hc (by simp) (by rw [htime]; exact hset) (by rw [htime]; rfl) _ _ _
  next => exact h

theorem takePulse_timingGood (h : s.TimingGood) : s.takePulse.TimingGood := by
  obtain ⟨hparams, htime, -⟩ := id h
  have measured (hv : s.timebase.discipline.valid = true) := htime.measure (p := s.params) hv
  unfold takePulse
  dsimp only
  split
  next => exact h
  next => exact armedPulse_timingGood h
  next hd =>
    refine h.withTimebase ((measured (by rw [hd]; rfl)).lockedPulse hparams hd) ?_
    unfold Timebase.lockedPulse
    split_ifs <;> rfl
  next hd =>
    refine h.withTimebase ((measured (by rw [hd]; rfl)).holdoverPulse hparams hd) ?_
    unfold Timebase.holdoverPulse
    split_ifs <;> rfl
  next hd =>
    refine h.withTimebase ((measured (by rw [hd]; rfl)).slewingPulse hparams hd) ?_
    unfold Timebase.slewingPulse
    split_ifs <;> rfl

theorem takeSlewEnd_timingGood (h : s.TimingGood) : s.takeSlewEnd.TimingGood := by
  unfold takeSlewEnd
  split
  · exact h.of_timebase (setTimebase_changes s _) (by simp) h.2.1.slewEnd rfl
  · exact h

theorem takeArmedExpiry_timingGood (h : s.TimingGood) : s.takeArmedExpiry.TimingGood := by
  unfold takeArmedExpiry
  split
  next f hd hf =>
    split
    · exact h.end_flight hf (withTimebase_changes s _) (by simp) (by simpa using h.2.1.disarm hd) (by simp) _ _ _
    · exact h
  next => exact h

theorem takeMissingPulse_timingGood (h : s.TimingGood) : s.takeMissingPulse.TimingGood := by
  unfold takeMissingPulse
  split
  · split
    · refine h.withTimebase h.2.1.missPulse ?_
      unfold Timebase.missPulse
      cases s.timebase.discipline <;> rfl
    · exact h
  · exact h

theorem takeBoundary_timingGood (h : s.TimingGood) : s.takeBoundary.TimingGood := by
  refine h.of_timebase s.takeBoundary_changes (by simp) ?_ ?_ <;> rw [takeBoundary_timebase]
  exact h.2.1

theorem takeExpiry_timingGood (h : s.TimingGood) : s.takeExpiry.TimingGood := by
  refine h.of_timebase s.takeExpiry_changes (by simp) ?_ ?_ <;> rw [takeExpiry_timebase]
  exact h.2.1

theorem takeScan_timingGood (h : s.TimingGood) : s.takeScan.TimingGood := by
  refine h.of_timebase s.takeScan_changes (by simp) ?_ ?_ <;> rw [takeScan_timebase]
  exact h.2.1

theorem takeDueEvents_timingGood (h : s.TimingGood) : s.takeDueEvents.TimingGood :=
  takeScan_timingGood <| takeExpiry_timingGood <| takeBoundary_timingGood <| takeMissingPulse_timingGood <|
    takeArmedExpiry_timingGood <| takeSlewEnd_timingGood h

theorem takeCycle_timingGood (h : s.TimingGood) : s.takeCycle.TimingGood := by
  have hdue := takeDueEvents_timingGood h
  exact hdue.of_timebase (setTimebase_changes _ _) (by simp) hdue.2.1.cycle
    (by rw [takeCycle, setTimebase_timebase, Timebase.cycle_eq])

theorem requestSetTime_timingGood (h : s.TimingGood) (hidle : (s.ctx m).request.inFlight = false) :
    (s.requestSetTime m).TimingGood := by
  have bare (st : Status) : (s.completeBare m st).TimingGood :=
    timingGood_restsOn.keep (completeBare_changes hidle st) (by simp [timingParts]) h
  unfold requestSetTime
  split
  · exact bare _
  · exact bare _
  · exact bare _
  · exact bare _
  next hd =>
    split
    · exact bare _
    next hle =>
      obtain ⟨hparams, htime, hflights⟩ := h
      have hchanges := withTimebase_changes s
        { s.timebase with discipline := .armed, inFlight := some ⟨m, s.argWide m 0 1, s.timebase.us⟩ }
      have hnone : s.timebase.inFlight = none := by
        obtain ⟨-, -, -, -, -, -, -, -, -, -, hflight, -⟩ := htime
        simpa [hd] using hflight
      refine ⟨?_, ?_, fun k => ?_⟩
      · rw [arm, modRequest_params, hchanges.params (by simp)]
        exact hparams
      · rw [arm, modRequest_timebase, withTimebase_timebase]
        exact htime.arm hd (Nat.not_lt.mp hle)
      · rw [setTimeInFlight, arm, modRequest_timebase, withTimebase_timebase]
        by_cases hk : k = m
        · subst hk
          simp
        · rw [modRequest, ctx_modCtx_of_ne hk, hchanges.inFlight (by simp), hflights k, setTimeInFlight, hnone]
          simp [Ne.symm hk]

theorem requestReacquire_timingGood (h : s.TimingGood) (hidle : (s.ctx m).request.inFlight = false) :
    (s.requestReacquire m).TimingGood := by
  unfold requestReacquire
  split
  next hd =>
    have hslew := h.withTimebase (h.2.1.reacquire hd) rfl
    have hidle' := ((withTimebase_changes s { s.timebase with discipline := .slewing, goodRun := 0, badRun := 0 }).inFlight
      (m := m) (by simp)).trans hidle
    exact timingGood_restsOn.keep (completeBare_changes hidle' _) (by simp [timingParts]) hslew
  next => exact timingGood_restsOn.keep (completeBare_changes hidle _) (by simp [timingParts]) h

theorem requestSetParameter_timingGood (h : s.TimingGood) (hidle : (s.ctx m).request.inFlight = false) :
    (s.requestSetParameter m).TimingGood := by
  have done (st : Status) (v : Values) : (s.complete m st v).TimingGood :=
    timingGood_restsOn.keep (complete_changes s m hidle st v) (by simp [timingParts]) h
  unfold requestSetParameter
  dsimp only
  split
  · exact done _ _
  · split
    · exact done _ _
    · split
      · exact done _ _
      · split
        next ha =>
          obtain ⟨hparams, htime, hflights⟩ := h
          have hset : State.TimingGood { s with params := s.params.assign (s.argNat m 0) (s.argNat m 1) } :=
            ⟨hparams.assign ha, htime, hflights⟩
          exact timingGood_restsOn.keep (complete_changes { s with params := s.params.assign _ _ } m hidle _ _)
            (by simp [timingParts]) hset
        · exact done _ _

/-- Cancelling a SET TIME of slot m, whose request slot is then made IDLE (R7, R171). -/
theorem resetContext_timingGood (h : s.TimingGood) : (s.resetContext m).TimingGood := by
  obtain ⟨hparams, htime, hflights⟩ := h
  have hu : Changes [.stations, .windows, .notices, .range m, .capture m, .staging m, .intake m, .request m, .flight m,
      .enables m] s (((s.modCtx m Context.resetShares).releaseAll m).1.disableRange m) :=
    ((disableRange_changes _ m).mono (by simp)).trans <|
      ((Changes.of_windowStep (releaseAll_step _ m)).mono (by simp)).trans <| (resetShares_changes s m).mono (by simp)
  unfold resetContext
  dsimp only
  generalize ((s.modCtx m Context.resetShares).releaseAll m).1.disableRange m = u at *
  have hsame : u.timebase = s.timebase := hu.timebase (by simp)
  have hcancel := cancelSetTime_changes u m
  refine ⟨?_, ?_, fun k => ?_⟩
  · rw [postResult_params, hcancel.params (by simp), hu.params (by simp)]
    exact hparams
  · rw [postResult_timebase, cancelSetTime]
    split
    next hf =>
      obtain ⟨f, hf, -⟩ := setTimeInFlight_iff.mp hf
      rw [hsame] at hf ⊢
      obtain ⟨-, -, -, -, -, -, -, -, -, -, hflight, -⟩ := id htime
      rw [withTimebase_timebase]
      exact htime.disarm (by simpa [hf] using hflight)
    · rw [hsame]
      exact htime
  · rw [inFlight_postResult, hcancel.inFlight (by simp), setTimeInFlight, postResult_timebase, cancelSetTime]
    by_cases hm : u.setTimeInFlight m = true
    · rw [if_pos hm, withTimebase_timebase]
      obtain ⟨f, hf, rfl⟩ := setTimeInFlight_iff.mp hm
      split
      · rfl
      next hk =>
        rw [hu.inFlight (by simp [hk]), hflights k, setTimeInFlight, ← hsame, hf]
        simp [Ne.symm hk]
    · rw [if_neg hm]
      split
      next hk => rw [hk]; exact (Bool.eq_false_of_not_eq_true hm).symm
      next hk => rw [hu.inFlight (by simp [hk]), hflights k, setTimeInFlight, hsame]

end State

/-- Every act keeps the timing good. -/
theorem act_timingGood {c : Instr} {s : State} (hc : isFullReset c = false) (hidle : s.IdleFor c) (h : s.TimingGood) :
    (act c s).TimingGood := by
  have quiet (hl : ∀ p ∈ touches c, State.timingParts p = false) : (act c s).TimingGood :=
    State.timingGood_restsOn.keep (act_changes hc hidle) hl h
  have idle {m : Slot} (hm : requester c = some m) : (s.ctx m).request.inFlight = false := hidle m hm
  cases c with
  | oscillatorCycle => exact State.takeCycle_timingGood h
  | slewRemainderEnd => exact State.takeSlewEnd_timingGood h
  | refPulse _ => exact State.takePulse_timingGood h
  | armedExpiry => exact State.takeArmedExpiry_timingGood h
  | missingPulseEvent => exact State.takeMissingPulse_timingGood h
  | boundaryEvent => exact State.takeBoundary_timingGood h
  | expiryEvent => exact State.takeExpiry_timingGood h
  | scanEvent => exact State.takeScan_timingGood h
  | setTime m => exact State.requestSetTime_timingGood h (idle rfl)
  | reacquire m => exact State.requestReacquire_timingGood h (idle rfl)
  | setParameter m => exact State.requestSetParameter_timingGood h (idle rfl)
  | contextReset m _ => exact State.resetContext_timingGood h
  | fullReset _ => cases hc
  | recordTaking => exact quiet (by simp [touches, State.timingParts, or_imp, forall_and])
  | _ => exact quiet (by simp [touches, State.timingParts])

/-- The state of a full reset is good in every part (R174). -/
theorem fullReset_timingGood (s : State) (line : ResetLine) : (act (.fullReset line) s).TimingGood := by
  have h : Changes [.lines] _ (act (.fullReset line) s) := setResetLine_changes _ line true
  refine State.timingGood_restsOn.keep h (by simp [State.timingParts])
    ⟨(by decide : Params.reset.Good), (by decide : Timebase.reset.Good), fun m => ?_⟩
  simp [State.fullResetValues, State.ctx, State.setTimeInFlight, Context.reset, RequestSlot.reset, Timebase.reset]

/-- Settles O14: every act keeps the timing good. -/
theorem timingStaysGood : Obligations.TimingStaysGood := fun _ _ hs hnext =>
  step_keeps State.timingGood_restsOn (fun sent => by cases sent <;> simp [edges, State.timingParts])
    fullReset_timingGood (fun _ _ hc hidle h => act_timingGood hc hidle h) hs hnext

/-! ### Valid time goes on (R1) -/

namespace Timebase

variable {t : Timebase} {p : Params} {e : Int}

theorem lockedPulse_fine : (t.lockedPulse p e).fine = t.fine := by
  unfold Timebase.lockedPulse
  split_ifs <;> rfl

theorem holdoverPulse_fine : (t.holdoverPulse p e).fine = t.fine := by
  unfold Timebase.holdoverPulse
  split_ifs <;> rfl

theorem slewingPulse_fine : (t.slewingPulse p e).fine = t.fine := by
  unfold Timebase.slewingPulse
  split_ifs <;> rfl

theorem missPulse_fine : t.missPulse.fine = t.fine := by
  unfold Timebase.missPulse
  cases t.discipline <;> rfl

/-- A cycle takes fine time on, or holds it at its end (R1). -/
theorem fine_le_cycle (h : t.Good) : t.fine ≤ (t.cycle p).fine := by
  obtain ⟨hus, hfrac, -⟩ := h
  rw [fine, fine, cycle_us, cycle_frac]
  exact fine_le_advanceFine t hus hfrac

end Timebase

namespace State

variable {s : State} {m : Slot}

theorem takeSlewEnd_fine : s.takeSlewEnd.timebase.fine = s.timebase.fine := by
  unfold takeSlewEnd
  split <;> rfl

theorem takeArmedExpiry_fine : s.takeArmedExpiry.timebase.fine = s.timebase.fine := by
  rcases s.takeArmedExpiry_timebase with ⟨h, -⟩ | ⟨-, h⟩ <;> rw [h]
  rfl

theorem takeMissingPulse_fine : s.takeMissingPulse.timebase.fine = s.timebase.fine := by
  rcases s.takeMissingPulse_timebase with ⟨h, -⟩ | ⟨-, h⟩ <;> rw [h]
  exact Timebase.missPulse_fine

theorem takeDueEvents_fine : s.takeDueEvents.timebase.fine = s.timebase.fine := by
  rw [takeDueEvents, takeScan_timebase, takeExpiry_timebase, takeBoundary_timebase]
  exact takeMissingPulse_fine.trans (takeArmedExpiry_fine.trans takeSlewEnd_fine)

/-- Of the pulses only that of ARMED sets fine time (R3, R5). -/
theorem takePulse_fine (hd : s.timebase.discipline ≠ .armed) : s.takePulse.timebase.fine = s.timebase.fine := by
  unfold takePulse
  dsimp only
  split
  next => rfl
  next h => exact absurd h hd
  next => rw [withTimebase_timebase, Timebase.lockedPulse_fine]; rfl
  next => rw [withTimebase_timebase, Timebase.holdoverPulse_fine]; rfl
  next => rw [withTimebase_timebase, Timebase.slewingPulse_fine]; rfl

theorem requestSetTime_fine : (s.requestSetTime m).timebase.fine = s.timebase.fine := by
  unfold requestSetTime
  split
  case h_5 =>
    split
    · rfl
    · rw [arm, modRequest_timebase, withTimebase_timebase]
      rfl
  all_goals rfl

theorem requestReacquire_fine : (s.requestReacquire m).timebase.fine = s.timebase.fine := by
  unfold requestReacquire
  split
  · rw [completeBare_timebase, withTimebase_timebase]
    rfl
  · rfl

theorem resetContext_fine : (s.resetContext m).timebase.fine = s.timebase.fine := by
  have htime : (((s.modCtx m Context.resetShares).releaseAll m).1.disableRange m).timebase = s.timebase := by
    rw [timebase_disableRange, (releaseAll_step _ m).timebase, modCtx_timebase]
  unfold resetContext
  dsimp only
  rw [postResult_timebase, cancelSetTime]
  split
  · rw [withTimebase_timebase, htime]
    rfl
  · rw [htime]

end State

/-- No act but a full reset takes valid network time back (R1). -/
theorem fine_le_act {c : Instr} {s : State} (hc : isFullReset c = false) (hidle : s.IdleFor c) (h : s.TimingGood)
    (hv : s.timebase.discipline.valid = true) : s.timebase.fine ≤ (act c s).timebase.fine := by
  have quiet (ht : Part.timebase ∉ touches c) : s.timebase.fine ≤ (act c s).timebase.fine := by
    rw [(act_changes hc hidle).timebase ht]
  cases c with
  | oscillatorCycle =>
    obtain ⟨-, hdue, -⟩ := State.takeDueEvents_timingGood h
    calc s.timebase.fine = s.takeDueEvents.timebase.fine := State.takeDueEvents_fine.symm
      _ ≤ (s.takeDueEvents.timebase.cycle s.takeDueEvents.params).fine := Timebase.fine_le_cycle hdue
  | slewRemainderEnd => exact State.takeSlewEnd_fine.ge
  | refPulse _ => exact (State.takePulse_fine fun hd => by rw [hd] at hv; cases hv).ge
  | armedExpiry => exact State.takeArmedExpiry_fine.ge
  | missingPulseEvent => exact State.takeMissingPulse_fine.ge
  | boundaryEvent => exact (congrArg Timebase.fine s.takeBoundary_timebase).ge
  | expiryEvent => exact (congrArg Timebase.fine s.takeExpiry_timebase).ge
  | scanEvent => exact (congrArg Timebase.fine s.takeScan_timebase).ge
  | setTime m => exact State.requestSetTime_fine.ge
  | reacquire m => exact State.requestReacquire_fine.ge
  | contextReset m _ => exact State.resetContext_fine.ge
  | fullReset _ => cases hc
  | recordTaking => exact quiet (by simp [touches, State.takingParts])
  | _ => exact quiet (by simp [touches])

/-- Of the changes of the discipline state none leads from valid time to another (Table 1-1). -/
theorem valid_of_mem_disciplineChanges {d e : Discipline} (h : (d, e) ∈ disciplineChanges) (hv : d.valid = true) :
    e.valid = true := by
  revert h hv
  cases d <;> cases e <;> decide

/-- Settles O13: validity by the changes of the discipline state (O12), fine time by the act of the command. -/
theorem validTimeNeverDecreases : Obligations.ValidTimeNeverDecreases := by
  intro s t hgood hv hc hnext
  suffices h : t.timebase.discipline.valid = true ∧ s.timebase.fine ≤ t.timebase.fine by
    simpa only [Timebase.fine, usUnits_eq] using h
  unfold step at hnext
  split at hnext
  · cases hnext
    exact ⟨hv, Nat.le_refl _⟩
  next c rest hpending =>
    have hc : isFullReset c = false := hc c (by rw [hpending]; rfl)
    have hgood' : ({ s with pending := rest } : State).TimingGood := hgood
    constructor
    · rcases State.exec_marked (State.flightInArmed_of_timingGood hgood') hc hnext with ⟨hd, -⟩ | ⟨hchange, -⟩
      · rw [hd]
        exact hv
      · exact valid_of_mem_disciplineChanges hchange hv
    · have noTime (sent : Option Slot) : Part.timebase ∉ edges sent := by cases sent <;> simp [edges]
      rcases exec_acted hnext hc with h | ⟨c', u, -, hc', hu, hidle, ht⟩
      · exact (congrArg Timebase.fine (h.timebase (noTime _))).ge
      · have htime : u.timebase = s.timebase := hu.timebase (noTime _)
        have hgood'' : u.TimingGood :=
          State.timingGood_restsOn.keep hu (by cases sender c <;> simp [edges, State.timingParts]) hgood'
        have hact := fine_le_act hc' hidle hgood'' (by rw [htime]; exact hv)
        rw [ht.timebase (noTime _), ← htime]
        exact hact

end Sys2Proof.Machine

/-! PROOFS. The station records: the sequence window (R38), the changes a record can take, and that they keep it in form
(R22, R23, R28, R31 to R33, R38, R41, R50 to R60). -/

namespace Sys2Proof.Machine

/-! ### The sequence window (R38) -/

theorem behind_eq (last s : Nat) : behind last s = (((last : Int) - s) % 65536).toNat := rfl

/-- A number is determined by its distance behind another. -/
theorem behind_inj {last x y : Nat} (hx : x ≤ 65535) (hy : y ≤ 65535) (h : behind last x = behind last y) : x = y := by
  rw [behind_eq, behind_eq] at h
  omega

/-- At most 32 numbers lie 1 to 32 behind one (R38). -/
theorem SequenceState.Good.seen_length {q : SequenceState} (h : q.Good) : q.seen.length ≤ 32 := by
  obtain ⟨-, hnodup, hseen⟩ := h
  have hdistances : (q.seen.map (behind q.last)).Nodup :=
    hnodup.map_on fun x hx y hy => behind_inj (hseen x hx).1 (hseen y hy).1
  have hsub : q.seen.map (behind q.last) ⊆ List.range' 1 32 := by
    intro d hd
    obtain ⟨x, hx, rfl⟩ := List.mem_map.mp hd
    obtain ⟨-, hlow, hhigh⟩ := hseen x hx
    exact List.mem_range'_1.mpr (by omega)
  simpa using (List.subperm_of_subset hdistances hsub).length_le

section Mark

variable {q : SequenceState} {s : Nat}

/-- A number ahead of the last becomes the last (R38). -/
theorem markSequence_of_ahead (h : 32768 ≤ behind q.last s) :
    markSequence (some q) s =
      (⟨s, (q.last :: q.seen).filter fun x => decide (1 ≤ behind s x) && decide (behind s x ≤ 32)⟩,
        65536 - behind q.last s - 1) := if_pos h

/-- A number just behind the last is one seen (R38). -/
theorem markSequence_of_seen (h : 1 ≤ behind q.last s ∧ behind q.last s ≤ 32) :
    markSequence (some q) s = (⟨q.last, if q.seen.contains s then q.seen else s :: q.seen⟩, 0) :=
  (if_neg (by omega)).trans (if_pos h)

/-- Any other number changes nothing (R38). -/
theorem markSequence_of_other (h : ¬ 32768 ≤ behind q.last s) (h' : ¬ (1 ≤ behind q.last s ∧ behind q.last s ≤ 32)) :
    markSequence (some q) s = (q, 0) := (if_neg h).trans (if_neg h')

theorem mem_marked_of_ahead (h : 32768 ≤ behind q.last s) (x : Nat) :
    x ∈ (markSequence (some q) s).1.seen ↔ (x = q.last ∨ x ∈ q.seen) ∧ 1 ≤ behind s x ∧ behind s x ≤ 32 := by
  rw [markSequence_of_ahead h]
  simp

theorem mem_marked_of_seen (h : 1 ≤ behind q.last s ∧ behind q.last s ≤ 32) (x : Nat) :
    x ∈ (markSequence (some q) s).1.seen ↔ x = s ∨ x ∈ q.seen := by
  rw [markSequence_of_seen h]
  cases hs : q.seen.contains s
  · simp
  · simp only [List.contains_iff_mem] at hs
    exact ⟨.inr, fun hx => hx.elim (fun e => e ▸ hs) id⟩

/-- Marking keeps the seen-set within 1 to 32 behind the last number, without repeats (R38). -/
theorem SequenceState.Good.marked (h : q.Good) (hs : s ≤ 65535) : (markSequence (some q) s).1.Good := by
  obtain ⟨hlast, hnodup, hseen⟩ := id h
  by_cases hahead : 32768 ≤ behind q.last s
  · have hnew : q.last ∉ q.seen := fun hm => by
      obtain ⟨-, hd, -⟩ := hseen _ hm
      rw [behind_self] at hd
      omega
    refine ⟨by rw [markSequence_of_ahead hahead]; exact hs, ?_, fun x hx => ?_⟩
    · rw [markSequence_of_ahead hahead]
      dsimp only
      exact (List.nodup_cons.mpr ⟨hnew, hnodup⟩).filter _
    · obtain ⟨hx, hd⟩ := (mem_marked_of_ahead hahead x).mp hx
      have hle : x ≤ 65535 := hx.elim (fun e => e ▸ hlast) fun hm => (hseen x hm).1
      rw [markSequence_of_ahead hahead]
      exact ⟨hle, hd⟩
  · by_cases hjust : 1 ≤ behind q.last s ∧ behind q.last s ≤ 32
    · refine ⟨by rw [markSequence_of_seen hjust]; exact hlast, ?_, fun x hx => ?_⟩
      · rw [markSequence_of_seen hjust]
        cases hm : q.seen.contains s
        · exact List.nodup_cons.mpr ⟨by simpa using hm, hnodup⟩
        · exact hnodup
      · rw [mem_marked_of_seen hjust] at hx
        rw [markSequence_of_seen hjust]
        rcases hx with rfl | hx
        · exact ⟨hs, hjust⟩
        · exact hseen x hx
    · rw [markSequence_of_other hahead hjust]
      exact h

end Mark

/-- Settles O25: the three cases of a number by its distance behind the last. -/
theorem markingKeepsTheSequenceWindow : Obligations.MarkingKeepsTheSequenceWindow := by
  intro s hs
  refine ⟨rfl, fun q hq => ?_⟩
  intro d marked
  refine ⟨hq.marked hs, (hq.marked hs).seen_length, fun h1 h32 => ?_, fun hahead => ?_⟩
  · have hjust : 1 ≤ behind q.last s ∧ behind q.last s ≤ 32 := ⟨h1, h32⟩
    refine ⟨?_, mem_marked_of_seen hjust, by rw [markSequence_of_seen hjust]⟩
    show (markSequence (some q) s).1.last = q.last
    rw [markSequence_of_seen hjust]
  · have hahead : 32768 ≤ behind q.last s := hahead
    refine ⟨?_, fun x => ?_, by rw [markSequence_of_ahead hahead]; rfl⟩
    · show (markSequence (some q) s).1.last = s
      rw [markSequence_of_ahead hahead]
    · rw [mem_marked_of_ahead hahead, behind_eq]
      refine and_congr_right fun _ => ?_
      omega

end Sys2Proof.Machine

/-! PROOFS. Station records at a boundary (R31, R32), a new reference (R53, R56 to R59, R33), and the form of a record. -/

namespace Sys2Proof.Machine

namespace Station

variable {r : Station}

/-! ### Pending configuration and staged model (R31, R32) -/

theorem applyPending_of_none (h : r.pendingConfig = none) : r.applyPending = r := by rw [applyPending, h]

theorem applyPending_of_some {c : StationConfig} (h : r.pendingConfig = some c) : r.applyPending = r.applyConfig c := by
  rw [applyPending, h]

theorem applyStaged_of_some {g : StagedModel} {a : ActiveModel} (hg : r.staged = some g) (ha : r.active = some a) :
    r.applyStaged = { r with
      active := some ⟨g.offset, g.drift, g.reference, g.delay, (a.revision + 1) % 256, a.estimated⟩, staged := none } := by
  simp only [applyStaged, hg, ha]
  rfl

end Station

namespace State

/-- In SETUP the Window Store does nothing at a boundary (R112). -/
theorem windowBoundary_of_setup {s : State} (h : s.part = .setup) (b : Nat) : s.windowBoundary b = s :=
  if_neg (by rw [h]; decide)

theorem takeBoundary_of_some {s : State} {b : Nat} (h : s.timebase.boundaryDue = some b) :
    s.takeBoundary =
      (s.setTimebase { s.timebase with boundaryDue := none }).stationBoundary.windowBoundary b := by
  rw [takeBoundary, h]

end State

/-- Settles O24: a boundary maps every record and then leaves the stations to the Window Store's step. -/
theorem boundaryAppliesEveryStation : Obligations.BoundaryAppliesEveryStation := by
  refine ⟨fun r => ⟨Station.applyPending_of_none, fun c hc hmode => ?_, fun c hc hmode => ?_, Station.applyStaged_of_none,
    fun g a => Station.applyStaged_of_some⟩, fun s b hr hb => ?_⟩
  · rw [Station.applyPending_of_some hc, Station.applyConfig_of_sameMode hmode]
  · rw [Station.applyPending_of_some hc, Station.applyConfig_of_newMode hmode]
    cases r.state <;> rfl
  · let u : State := (s.setTimebase { s.timebase with boundaryDue := none }).stationBoundary
    have hstep : WindowStep u (u.windowBoundary b) := State.windowBoundary_step u b
    have hstation (n : StationNo) : (u.windowBoundary b).station n = (s.station n).applyPending.applyStaged := by
      rw [hstep.station]
      exact State.station_stationBoundary _ n
    refine ⟨u.windowBoundary b, ?_, ?_, fun hsetup => ?_, fun n => ⟨fun hno => ?_, fun g a hg ha => ?_⟩⟩
    · rw [State.exec_boundaryEvent hr, State.takeBoundary_of_some hb]
    · rw [hstep.stations]
      exact hstep
    · rw [State.windowBoundary_of_setup (s := u) hsetup]
      exact ⟨rfl, rfl⟩
    · rw [hstation, Station.applyStaged_of_none hno]
    · rw [hstation, Station.applyStaged_of_some hg ha]

/-! ### A probe that enters the history (R53 to R59) -/

namespace Station

variable {r : Station} {p : Probe} {params : Params} {part : PartState} {a : ActiveModel} {sel : HistoryEntry}

/-- A probe within the step limit enters the history and raises the horizon (R50, R51). -/
theorem processProbe_of_kept (ha : r.active = some a) (hkept : a.stepped p params.stepLimit = false) :
    r.processProbe p params part = (r.countProbe.selectModel p params part).raiseHorizon p.t3 := by
  have hcount : r.countProbe.active = some a := ha
  rw [countProbe] at hcount
  simp only [processProbe, hcount, hkept]
  rfl

/-- The probe in the history, nothing else changed yet (R53). -/
def enterHistory (r : Station) (p : Probe) : Station := { r with history := addHistory r.history p }

/-- A selection that stands where the current reference is changes no model (R56). -/
theorem selectModel_of_unmoved (hsel : selectEntry (addHistory r.history p) = some sel) (ha : r.active = some a)
    (href : sel.t2 = currentReference r.staged a) : r.selectModel p params part = r.enterHistory p := by
  simp only [selectModel, hsel, ha, href, if_true, enterHistory]

/-- A selection that moves is a new reference (R57). -/
theorem selectModel_of_moved (hsel : selectEntry (addHistory r.history p) = some sel) (ha : r.active = some a)
    (href : sel.t2 ≠ currentReference r.staged a) :
    r.selectModel p params part = ((r.enterHistory p).newReference a sel params).holdStaged part := by
  simp only [selectModel, hsel, ha, if_neg href, enterHistory]

/-- Over a short span the base drift is kept (R57). -/
theorem newReference_of_short {anchor : Anchor} (hanchor : r.anchor = some anchor)
    (h : (sel.t2 : Int) - anchor.t2 < 1000000 * params.minDriftSpan) :
    r.newReference a sel params = { r with staged := some ⟨sel.offset, baseDrift r.staged a, sel.t2, sel.delay⟩ } := by
  have hnot : ¬ ((million * params.minDriftSpan : Nat) : Int) ≤ (sel.t2 : Int) - anchor.t2 := by
    simp only [million]
    omega
  simp only [newReference, hanchor, if_neg hnot]

/-- Over a span long enough the drift is computed anew (R57, R58). -/
theorem newReference_of_long {anchor : Anchor} (hanchor : r.anchor = some anchor)
    (h : 1000000 * (params.minDriftSpan : Int) ≤ (sel.t2 : Int) - anchor.t2) :
    r.newReference a sel params = { r with
      anchor := some ⟨sel.t2, sel.offset⟩
      active := some { a with estimated := true }
      state := if r.state = .acquiring then .tracking else r.state
      staged := some
        ⟨sel.offset, smoothedDrift (baseDrift r.staged a) anchor sel params.smoothing, sel.t2, sel.delay⟩ } := by
  have hle : ((million * params.minDriftSpan : Nat) : Int) ≤ (sel.t2 : Int) - anchor.t2 := by
    simp only [million]
    omega
  simp only [newReference, hanchor, if_pos hle]

theorem currentReference_eq (staged : Option StagedModel) (a : ActiveModel) :
    currentReference staged a = (staged.map StagedModel.reference).getD a.reference := by
  cases staged <;> rfl

theorem baseDrift_eq (staged : Option StagedModel) (a : ActiveModel) :
    baseDrift staged a = (staged.map StagedModel.drift).getD a.drift := by
  cases staged <;> rfl

/-- Raising the horizon and applying a staged model touch different fields. -/
theorem raiseHorizon_applyStaged (r : Station) (v : Nat) :
    r.applyStaged.raiseHorizon v = (r.raiseHorizon v).applyStaged := by
  unfold applyStaged
  split <;> simp_all [raiseHorizon]

end Station

/-- Settles O32: the selection that stands, and the one that moves, over a short and a long span. -/
theorem newReferenceStagesAModel : Obligations.NewReferenceStagesAModel := by
  intro r p params a anchor sel ha hanchor hlimit hsel entered reference base span raw
  have hkept : a.stepped p params.stepLimit = false := by
    rw [← Bool.not_eq_true, ActiveModel.stepped_iff]
    exact Nat.not_lt.mpr hlimit
  have hprobe (part : PartState) := Station.processProbe_of_kept (part := part) ha hkept
  have hcount : r.countProbe.active = some a := ha
  have hselected : selectEntry (addHistory r.countProbe.history p) = some sel := hsel
  have hreference : currentReference r.countProbe.staged a = reference := Station.currentReference_eq r.staged a
  have hbase : baseDrift (r.countProbe.enterHistory p).staged a = base := Station.baseDrift_eq r.staged a
  have hanchored : (r.countProbe.enterHistory p).anchor = some anchor := hanchor
  refine ⟨fun hsame part => ?_, fun hmoved => ⟨?_, fun hshort => ?_, fun hlong => ?_⟩⟩
  · rw [hprobe, Station.selectModel_of_unmoved hselected hcount (hsame.trans hreference.symm), Station.raiseHorizon_eq]
    rfl
  all_goals
    have hne : sel.t2 ≠ currentReference r.countProbe.staged a := fun h => hmoved (h.trans hreference)
    have hmodel (part : PartState) := Station.selectModel_of_moved (params := params) (part := part) hselected hcount hne
  · rw [hprobe, hprobe, hmodel, hmodel]
    exact Station.raiseHorizon_applyStaged _ _
  · rw [hprobe, hmodel, Station.newReference_of_short hanchored hshort, hbase, Station.holdStaged, if_pos rfl,
      Station.raiseHorizon_eq]
    rfl
  · rw [hprobe, hmodel, Station.newReference_of_long hanchored hlong, hbase, Station.holdStaged, if_pos rfl,
      Station.raiseHorizon_eq]
    rfl

end Sys2Proof.Machine

/-! PROOFS. The changes that a station record can take, and that each keeps a good record good (R22, R23, R28, R38, R41, R53,
R57, R60). -/

namespace Sys2Proof.Machine

namespace Station

/-- The change of one station record by one operation of the part; `owned` says that a slot owns the station, `timely` that
the network µs of the operation lies in its range. -/
inductive Change (owned timely : Prop) (r : Station) : Station → Prop
  | boundary : Change owned timely r r.atBoundary
  | silent (h : r.state ≠ .disabled) : Change owned timely r { r with state := .silent }
  | arrival {now : Nat} (h : timely → now ≤ maxUs) : Change owned timely r { r with lastArrival := now }
  | counters {c : StationCounters} (h : r.counters.Good → c.Good) : Change owned timely r { r with counters := c }
  | configured {c : StationConfig} (h : c.Good) : Change owned timely r (r.applyConfig c)
  | staged {c : StationConfig} (h : c.Good) (hs : r.state ≠ .disabled) :
      Change owned timely r { r with pendingConfig := some c }
  | disabled : Change owned timely r { r.applyPending with state := .disabled }
  | contextReset : Change owned timely r r.contextReset
  | enabled {now : Nat} (ho : owned) (hs : r.state = .disabled) (h : timely → now ≤ maxUs) :
      Change owned timely r { r with state := r.serviceState, lastArrival := now }
  | block (rec : IntakeRecord) {stamp : Option Nat} (h : ∀ x ∈ stamp, x ≤ maxUs) :
      Change owned timely r (r.afterBlock rec stamp)
  | accepted {now : Nat} (h : timely → now ≤ maxUs) : Change owned timely r (r.afterAccepted now)
  | probe {p : Probe} (params : Params) (part : PartState) (hm : r.config.mode = .probed) (h : p.t3 ≤ maxUs) :
      Change owned timely r (r.processProbe p params part)

variable {r : Station}

/-! ### Out of service stays out of service -/

theorem applyConfig_state_of_disabled (h : r.state = .disabled) (c : StationConfig) :
    (r.applyConfig c).state = .disabled := by
  by_cases hmode : c.mode = r.config.mode
  · rw [applyConfig_of_sameMode hmode]
    exact h
  · rw [applyConfig_of_newMode hmode]
    simp [h]

theorem applyPending_state_of_disabled (h : r.state = .disabled) : r.applyPending.state = .disabled := by
  unfold applyPending
  split
  · exact applyConfig_state_of_disabled h _
  · exact h

@[simp] theorem applyStaged_state (r : Station) : r.applyStaged.state = r.state := by
  unfold applyStaged
  split <;> rfl

@[simp] theorem holdStaged_state (r : Station) (part : PartState) : (r.holdStaged part).state = r.state := by
  unfold holdStaged
  split
  · rfl
  · exact applyStaged_state r

theorem newReference_state_of_disabled (h : r.state = .disabled) (a : ActiveModel) (sel : HistoryEntry) (p : Params) :
    (r.newReference a sel p).state = .disabled := by
  unfold newReference
  dsimp only
  split
  · split
    · simp [h]
    · exact h
  · exact h

theorem selectModel_state_of_disabled (h : r.state = .disabled) (p : Probe) (params : Params) (part : PartState) :
    (r.selectModel p params part).state = .disabled := by
  unfold selectModel
  dsimp only
  split
  · exact h
  · split
    · exact h
    · rw [holdStaged_state]
      exact newReference_state_of_disabled (r := { r with history := addHistory r.history p }) h _ _ _
  · exact h

theorem processProbe_state_of_disabled (h : r.state = .disabled) (p : Probe) (params : Params) (part : PartState) :
    (r.processProbe p params part).state = .disabled := by
  have hselect : (r.countProbe.selectModel p params part).state = .disabled :=
    selectModel_state_of_disabled (r := r.countProbe) h _ _ _
  cases ha : r.active with
  | none => rw [processProbe_of_noModel ha]; exact hselect
  | some a =>
    cases hstep : a.stepped p params.stepLimit with
    | true =>
      rw [processProbe_of_stepped ha hstep]
      simp [applyStep, countProbe, modCounters, h]
    | false => rw [processProbe_of_kept ha hstep]; exact hselect

/-- What a block's outcome changes of its station (R91). -/
theorem afterBlock_eq (r : Station) (rec : IntakeRecord) (stamp : Option Nat) :
    r.afterBlock rec stamp = { r with
      sequence := (r.mark rec.sequence).sequence
      counters := (r.mark rec.sequence).counters
      horizon := (stamp.map fun x => max (r.horizon.getD 0) x).or r.horizon
      lastLock := if r.config.mode = .satellite then rec.lockFlag else r.lastLock
      lastSeconds := if r.config.mode = .satellite then rec.seconds else r.lastSeconds } := by
  by_cases hmode : r.config.mode = .satellite
  · cases stamp <;> simp [afterBlock, mark, raiseHorizon_eq, hmode]
  · cases stamp <;> simp [afterBlock, mark, raiseHorizon_eq, hmode]

/-- Only its owner brings a DISABLED station back (R26, R27). -/
theorem Change.disabled_of {owned timely : Prop} {r' : Station} (h : Change owned timely r r') (ho : ¬owned)
    (hs : r.state = .disabled) : r'.state = .disabled := by
  cases h with
  | boundary => rw [atBoundary, applyStaged_state]; exact applyPending_state_of_disabled hs
  | silent h => exact absurd hs h
  | arrival _ | counters _ => exact hs
  | configured _ => exact applyConfig_state_of_disabled hs _
  | staged _ h => exact absurd hs h
  | disabled | contextReset => rfl
  | enabled h => exact absurd h ho
  | block rec _ => rw [afterBlock_eq]; exact hs
  | accepted _ => simp [afterAccepted, told, modCounters, hs]
  | probe params part _ _ => exact processProbe_state_of_disabled hs _ _ _

/-! ### A good record stays good -/

/-- A station on a new configuration (R31). -/
theorem Good.applyConfig (h : r.Good) {c : StationConfig} (hc : c.Good) : (r.applyConfig c).Good := by
  obtain ⟨-, -, hsequence, hhorizon, harrival, hseconds, hcounters, hmodels, hstate⟩ := h
  by_cases hmode : c.mode = r.config.mode
  · rw [applyConfig_of_sameMode hmode]
    obtain ⟨-, hprobed, hmodels⟩ := hmodels
    refine ⟨hc, by simp, hsequence, hhorizon, harrival, hseconds, hcounters, ⟨fun _ => rfl, ?_, hmodels⟩, ?_⟩
    · simpa only [hmode] using hprobed
    · simpa only [Station.StateGood, hmode] using hstate
  · rw [applyConfig_of_newMode hmode]
    refine ⟨hc, by simp, hsequence, by simp, harrival, hseconds, hcounters, by simp [Station.ModelsGood], ?_⟩
    cases hs : r.state <;> by_cases hp : c.mode = .probed <;> simp [Station.StateGood, hp]

theorem Good.applyPending (h : r.Good) : r.applyPending.Good := by
  unfold Station.applyPending
  split
  next c hc =>
    obtain ⟨-, hpending, -⟩ := id h
    exact h.applyConfig (hpending c hc)
  · exact h

/-- A staged model in place of the active one (R32, R33, R60). -/
theorem Good.applyStaged (h : r.Good) : r.applyStaged.Good := by
  unfold Station.applyStaged
  split
  next g a hg ha =>
    obtain ⟨hconfig, hpending, hsequence, hhorizon, harrival, hseconds, hcounters, hmodels, hstate⟩ := h
    obtain ⟨hdisabled, hprobed, -, hanchor, hlength, -, hdrift⟩ := hmodels
    have hmode : r.config.mode = .probed := by
      by_contra hne
      rw [hprobed hne] at ha
      cases ha
    refine ⟨hconfig, hpending, hsequence, hhorizon, harrival, hseconds, hcounters,
      ⟨hdisabled, fun hne => absurd hmode hne, by simp, fun _ => hanchor (by simp [ha]), hlength, ?_, by simp⟩, ?_⟩
    · rintro x hx
      cases hx
      exact ⟨hdrift g hg, Nat.le_of_lt_succ (Nat.mod_lt _ (by decide))⟩
    · simpa [Station.StateGood, ha] using hstate
  · exact h

theorem Good.mark (h : r.Good) {s : Nat} (hs : s ≤ 65535) : (r.mark s).Good := by
  obtain ⟨hconfig, hpending, hsequence, hhorizon, harrival, hseconds, hcounters, hmodels, hstate⟩ := h
  obtain ⟨haccepted, hlate, hduplicates, -, hrest⟩ := hcounters
  refine ⟨hconfig, hpending, ?_, hhorizon, harrival, hseconds, ⟨haccepted, hlate, hduplicates, raise16By_le .., hrest⟩,
    hmodels, hstate⟩
  rintro q hq
  cases hq
  cases hr : r.sequence with
  | none => exact ⟨hs, List.nodup_nil, by simp⟩
  | some q => exact (hsequence q hr).marked hs

theorem Good.raiseHorizon (h : r.Good) {v : Nat} (hv : v ≤ maxUs) : (r.raiseHorizon v).Good := by
  obtain ⟨hconfig, hpending, hsequence, hhorizon, hrest⟩ := h
  rw [raiseHorizon_eq]
  refine ⟨hconfig, hpending, hsequence, ?_, hrest⟩
  rintro x hx
  cases hx
  cases hr : r.horizon with
  | none => simpa using hv
  | some y => simpa using ⟨hhorizon y hr, hv⟩

/-- A block's outcome at its station (R91): its 16 bits of sequence and 15 bits of seconds fit the record. -/
theorem Good.afterBlock (h : r.Good) (rec : IntakeRecord) {stamp : Option Nat} (hstamp : ∀ x ∈ stamp, x ≤ maxUs) :
    (r.afterBlock rec stamp).Good := by
  have hsequence : rec.sequence ≤ 65535 := Nat.le_of_lt_succ (Nat.mod_lt _ (by decide))
  have hlock : rec.seconds ≤ 32767 := Nat.le_of_lt_succ (Nat.mod_lt _ (by decide))
  have hraised : (match stamp with | some x => (r.mark rec.sequence).raiseHorizon x | none => r.mark rec.sequence).Good := by
    cases stamp with
    | none => exact h.mark hsequence
    | some x => exact (h.mark hsequence).raiseHorizon (hstamp x rfl)
  unfold Station.afterBlock
  dsimp only
  split
  · obtain ⟨hconfig, hpending, hseen, hhorizon, harrival, -, hrest⟩ := hraised
    exact ⟨hconfig, hpending, hseen, hhorizon, harrival, hlock, hrest⟩
  · exact hraised

theorem Good.arrival (h : r.Good) {now : Nat} (hnow : now ≤ maxUs) : ({ r with lastArrival := now } : Station).Good := by
  obtain ⟨hconfig, hpending, hsequence, hhorizon, -, hrest⟩ := h
  exact ⟨hconfig, hpending, hsequence, hhorizon, hnow, hrest⟩

theorem Good.counters (h : r.Good) {c : StationCounters} (hc : r.counters.Good → c.Good) :
    ({ r with counters := c } : Station).Good := by
  obtain ⟨hconfig, hpending, hsequence, hhorizon, harrival, hseconds, hcounters, hrest⟩ := h
  exact ⟨hconfig, hpending, hsequence, hhorizon, harrival, hseconds, hc hcounters, hrest⟩

/-- The state of a station that is not DISABLED comes and goes with the models as they are (R23). -/
theorem Good.withState (h : r.Good) {st : StationState} (hd : st = .disabled → r.pendingConfig = none)
    (hst : ({ r with state := st } : Station).StateGood) : ({ r with state := st } : Station).Good := by
  obtain ⟨hconfig, hpending, hsequence, hhorizon, harrival, hseconds, hcounters, ⟨-, hmodels⟩, -⟩ := h
  exact ⟨hconfig, hpending, hsequence, hhorizon, harrival, hseconds, hcounters, ⟨hd, hmodels⟩, hst⟩

/-- A station that comes into service is ACQUIRING exactly when it has no estimated drift to go by (R27, R34). -/
theorem Good.intoService (h : r.Good) : ({ r with state := r.serviceState } : Station).Good := by
  refine h.withState (fun hd => ?_) ⟨fun hmode _ => ?_, fun hmode => ?_⟩
  · rw [serviceState_eq] at hd
    split at hd <;> cases hd
  · have hprobed : r.config.mode = .probed := hmode
    simp [serviceState_eq, hprobed]
  · simp [serviceState_eq, hmode]

/-- A station told of a block returns to service if it was SILENT (R34). -/
theorem Good.toldOf (h : r.Good) :
    ({ r with state := if r.state = .silent then r.serviceState else r.state } : Station).Good := by
  by_cases hsilent : r.state = .silent
  · rw [if_pos hsilent]
    exact h.intoService
  · rw [if_neg hsilent]
    exact h

theorem Good.afterAccepted (h : r.Good) {now : Nat} (hnow : now ≤ maxUs) : (r.afterAccepted now).Good := by
  have hcounted : ({ r with
      counters := { r.counters with blocksAccepted := raise16 r.counters.blocksAccepted } } : Station).Good :=
    h.counters fun ⟨_, hrest⟩ => ⟨raise16_le _, hrest⟩
  exact hcounted.toldOf.arrival hnow

/-- A DISABLED station with nothing pending is in form in any mode (R28). -/
theorem Good.disabled (h : r.Good) (hp : r.pendingConfig = none) : ({ r with state := .disabled } : Station).Good :=
  h.withState (fun _ => hp) (by simp [Station.StateGood])

theorem applyPending_pendingConfig (r : Station) : r.applyPending.pendingConfig = none := by
  unfold applyPending
  split
  next c _ =>
    by_cases hmode : c.mode = r.config.mode
    · rw [applyConfig_of_sameMode hmode]
    · rw [applyConfig_of_newMode hmode]
  next h => exact h

theorem Good.contextReset (h : r.Good) : r.contextReset.Good := by
  obtain ⟨hconfig, -, hsequence, hhorizon, harrival, hseconds, hcounters, -, -⟩ := h
  exact ⟨hconfig, by simp [Station.contextReset], hsequence, hhorizon, harrival, hseconds, hcounters,
    by simp [Station.contextReset, Station.ModelsGood], by simp [Station.contextReset, Station.StateGood]⟩

/-! ### Probes (R50 to R60) -/

theorem Good.countProbe (h : r.Good) : r.countProbe.Good :=
  h.counters fun ⟨haccepted, hlate, hduplicates, hgaps, hrefusals, _, hrest⟩ =>
    ⟨haccepted, hlate, hduplicates, hgaps, hrefusals, raise16_le _, hrest⟩

theorem addHistory_length {h : List HistoryEntry} (hh : h.length ≤ 8) (p : Probe) : (addHistory h p).length ≤ 8 := by
  unfold addHistory
  split <;> simp <;> omega

theorem addHistory_ne_nil (h : List HistoryEntry) (p : Probe) : addHistory h p ≠ [] := by simp [addHistory]

theorem Good.enterHistory (h : r.Good) (ha : r.active ≠ none) (p : Probe) : (r.enterHistory p).Good := by
  obtain ⟨hconfig, hpending, hsequence, hhorizon, harrival, hseconds, hcounters, hmodels, hstate⟩ := h
  obtain ⟨hdisabled, hprobed, -, hanchor, hlength, hactive⟩ := hmodels
  exact ⟨hconfig, hpending, hsequence, hhorizon, harrival, hseconds, hcounters, ⟨hdisabled, hprobed,
    fun hno => absurd hno ha, fun hne => ⟨(hanchor hne).1, addHistory_ne_nil _ _⟩, addHistory_length hlength p, hactive⟩,
    hstate⟩

/-- A declared step leaves a model not estimated, with the one entry it starts from (R52). -/
theorem Good.applyStep (h : r.Good) {a : ActiveModel} (ha : r.active = some a) {p : Probe} (hp : p.t3 ≤ maxUs) :
    (r.applyStep a p).Good := by
  obtain ⟨hconfig, hpending, hsequence, -, harrival, hseconds, hcounters, hmodels, hstate⟩ := h
  obtain ⟨hdisabled, hprobed, -, -, -, hactive, -⟩ := hmodels
  obtain ⟨haccepted, hlate, hduplicates, hgaps, hrefusals, hprobes, hrefused, -⟩ := hcounters
  obtain ⟨hdrift, -⟩ := hactive a ha
  have hmode : r.config.mode = .probed := by
    by_contra hne
    rw [hprobed hne] at ha
    cases ha
  refine ⟨hconfig, hpending, hsequence, ?_, harrival, hseconds,
    ⟨haccepted, hlate, hduplicates, hgaps, hrefusals, hprobes, hrefused, raise16_le _⟩,
    ⟨fun hd => hdisabled ?_, fun hne => absurd hmode hne, by simp [Station.applyStep], by simp [Station.applyStep],
      by simp [Station.applyStep], ?_, by simp [Station.applyStep]⟩, ?_⟩
  · rintro x hx
    cases hx
    exact hp
  · simp only [Station.applyStep] at hd
    split at hd
    · cases hd
    · exact hd
  · rintro x hx
    cases hx
    exact ⟨hdrift, Nat.le_of_lt_succ (Nat.mod_lt _ (by decide))⟩
  · cases hs : r.state <;> simp [Station.StateGood, Station.applyStep, hs, hmode]

/-- A new reference keeps the drift within ±200,000 ppb, as it moves the base toward a value within (R57, R58). -/
theorem Good.newReference (h : r.Good) {a : ActiveModel} (ha : r.active = some a) (sel : HistoryEntry) (p : Params) :
    (r.newReference a sel p).Good := by
  obtain ⟨hconfig, hpending, hsequence, hhorizon, harrival, hseconds, hcounters, hmodels, hstate⟩ := id h
  obtain ⟨hdisabled, hprobed, -, hanchor, hlength, hactive, hstaged⟩ := hmodels
  obtain ⟨hdrift, hrevision⟩ := hactive a ha
  have hmode : r.config.mode = .probed := by
    by_contra hne
    rw [hprobed hne] at ha
    cases ha
  have hbase : -200000 ≤ baseDrift r.staged a ∧ baseDrift r.staged a ≤ 200000 := by
    unfold baseDrift
    split
    next g hg => exact hstaged g hg
    · exact hdrift
  have hkeep {g : StagedModel} (hg : -200000 ≤ g.drift ∧ g.drift ≤ 200000) :
      ({ r with staged := some g } : Station).Good :=
    ⟨hconfig, hpending, hsequence, hhorizon, harrival, hseconds, hcounters, ⟨hdisabled, hprobed, by simp [ha], hanchor,
      hlength, hactive, by simpa using hg⟩, hstate⟩
  unfold Station.newReference
  dsimp only
  split
  next anchor _ =>
    split
    · refine ⟨hconfig, hpending, hsequence, hhorizon, harrival, hseconds, hcounters, ⟨fun hd => hdisabled ?_,
        fun hne => absurd hmode hne, by simp, fun _ => ⟨by simp, (hanchor (by simp [ha])).2⟩, hlength, ?_, ?_⟩, ?_⟩
      · simp only at hd
        split at hd
        · cases hd
        · exact hd
      · rintro x hx
        cases hx
        exact ⟨hdrift, hrevision⟩
      · rintro g hg
        cases hg
        exact toward_bounds hbase (clamp_bounds (by decide) _)
      · cases hs : r.state <;> simp [Station.StateGood, hmode]
    · exact hkeep hbase
  · exact hkeep hbase

theorem Good.holdStaged (h : r.Good) (part : PartState) : (r.holdStaged part).Good := by
  unfold Station.holdStaged
  split
  · exact h
  · exact h.applyStaged

theorem Good.selectModel (h : r.Good) (hmode : r.config.mode = .probed) (p : Probe) (params : Params) (part : PartState) :
    (r.selectModel p params part).Good := by
  cases ha : r.active with
  | none =>
    obtain ⟨hconfig, hpending, hsequence, hhorizon, harrival, hseconds, hcounters, hmodels, hstate⟩ := h
    obtain ⟨hdisabled, -, hempty, -⟩ := hmodels
    obtain ⟨hstaged, -, hhistory⟩ := hempty ha
    rw [selectModel_of_first ha hhistory]
    refine ⟨hconfig, hpending, hsequence, hhorizon, harrival, hseconds, hcounters, ⟨hdisabled, fun hne => absurd hmode hne,
      by simp, by simp, by simp, by simp, by simp [hstaged]⟩, ?_⟩
    simpa [Station.StateGood, hmode, ha] using hstate
  | some a =>
    have hentered : (r.enterHistory p).Good := h.enterHistory (by simp [ha]) p
    obtain ⟨sel, hsel⟩ : ∃ sel, selectEntry (addHistory r.history p) = some sel := by
      obtain ⟨e, t, het⟩ := List.exists_cons_of_ne_nil (addHistory_ne_nil r.history p)
      obtain ⟨-, -, sel, -, hsel⟩ := exists_selectedAt_selectEntry e t
      exact ⟨sel, by rw [het, hsel]⟩
    by_cases href : sel.t2 = currentReference r.staged a
    · rw [selectModel_of_unmoved hsel ha href]
      exact hentered
    · rw [selectModel_of_moved hsel ha href]
      exact (hentered.newReference ha sel params).holdStaged part

theorem Good.processProbe (h : r.Good) (hmode : r.config.mode = .probed) {p : Probe} (hp : p.t3 ≤ maxUs) (params : Params)
    (part : PartState) : (r.processProbe p params part).Good := by
  have hkept := (h.countProbe.selectModel hmode p params part).raiseHorizon hp
  cases ha : r.active with
  | none => rw [processProbe_of_noModel ha]; exact hkept
  | some a =>
    cases hstep : a.stepped p params.stepLimit with
    | true => rw [processProbe_of_stepped ha hstep]; exact h.countProbe.applyStep ha hp
    | false => rw [processProbe_of_kept ha hstep]; exact hkept

/-- Every change keeps a good record good. -/
theorem Change.good {owned timely : Prop} {r' : Station} (h : Change owned timely r r') (ht : timely) (hr : r.Good) :
    r'.Good := by
  cases h with
  | boundary => exact hr.applyPending.applyStaged
  | silent h => exact hr.withState (by simp) (by simp [Station.StateGood])
  | arrival h => exact hr.arrival (h ht)
  | counters h => exact hr.counters h
  | configured h => exact hr.applyConfig h
  | staged hc hs =>
    obtain ⟨hconfig, -, hsequence, hhorizon, harrival, hseconds, hcounters, ⟨-, hmodels⟩, hstate⟩ := hr
    exact ⟨hconfig, by simpa using hc, hsequence, hhorizon, harrival, hseconds, hcounters,
      ⟨fun hd => absurd hd hs, hmodels⟩,
      hstate⟩
  | disabled => exact hr.applyPending.disabled (applyPending_pendingConfig r)
  | contextReset => exact hr.contextReset
  | enabled _ _ h => exact hr.intoService.arrival (h ht)
  | block rec h => exact hr.afterBlock rec h
  | accepted h => exact hr.afterAccepted (h ht)
  | probe params part hm h => exact hr.processProbe hm h params part

end Station

end Sys2Proof.Machine

/-! PROOFS. What every act makes of the station records: changes that records take; so they stay good (R22 to R60), and
every enabled station stays owned (R24, R25, R42). -/

namespace Sys2Proof.Machine

/-! ### What passes the checks -/

/-- An extended stamp within network time (R65, R72). -/
theorem toNat_le_maxUs {x : Int} (h : inTimeRange x = true) : x.toNat ≤ maxUs := by
  simp only [inTimeRange, Bool.and_eq_true, decide_eq_true_eq] at h
  omega

/-- The stamp that a correction hands back lies in the range of network time (R72). -/
theorem correct_ok_stamp {s : State} {m : Slot} {n : StationNo} {rec : IntakeRecord} {capture : Nat} {c : Corrected}
    (h : correct s m n rec capture = .ok c) : ∀ x ∈ c.stamp, x ≤ maxUs := by
  unfold correct at h
  dsimp only at h
  split at h
  · cases h
  next hrange =>
    split at h
    · cases h
    · cases h
      intro x hx
      obtain ⟨y, hy, rfl⟩ := Option.map_eq_some_iff.mp hx
      refine toNat_le_maxUs ?_
      simp only [hy, Option.getD_some, Bool.or_eq_true, not_or, Bool.not_eq_true', Bool.not_eq_false] at hrange
      exact hrange.1.1

/-- A measured probe's t3 lies in the range of network time (R48). -/
theorem measureProbe_ok_t3 {t1 t4 raw2 raw3 maxDelay : Nat} {horizon : Option Nat} {p : Probe}
    (h : measureProbe t1 t4 raw2 raw3 horizon maxDelay = .ok p) : p.t3 ≤ maxUs := by
  unfold measureProbe at h
  dsimp only at h
  split at h
  · cases h
  next hrange =>
    split at h
    · cases h
    · split at h
      · cases h
      · cases h
        simp only [Bool.or_eq_true, not_or, Bool.not_eq_true', Bool.not_eq_false] at hrange
        exact toNat_le_maxUs hrange.2

namespace State

variable {s : State} {m : Slot} {rec : IntakeRecord} {n : StationNo}

/-- A judged block is a corrected one (R87). -/
theorem judgeBlock_ok {c : Corrected} (h : s.judgeBlock m rec = .ok (n, c)) :
    ∃ capture, correct s m n rec capture = .ok c := by
  unfold judgeBlock at h
  split at h
  · cases h
  next k capture _ =>
    split at h
    · cases h
    next d hcorrect =>
      split at h
      · cases h
      · split at h
        · cases h
        · split at h
          · cases h
          · cases h
            exact ⟨capture, hcorrect⟩

/-- A judged probe is one of a PROBED station, measured (R93). -/
theorem judgeProbe_ok {p : Probe} (h : s.judgeProbe m rec = .ok (n, p)) :
    (s.station n).config.mode = .probed ∧ p.t3 ≤ maxUs := by
  unfold judgeProbe at h
  split at h
  · cases h
  next k _ =>
    dsimp only at h
    split at h
    · cases h
    · split at h
      · cases h
      · split at h
        · cases h
        next hmode =>
          split at h
          · split at h
            next hmeasure =>
              cases h
              exact ⟨not_not.mp hmode, measureProbe_ok_t3 hmeasure⟩
            · cases h
          · cases h

end State

/-! ### Changes of the station table -/

/-- From s to t every station record has taken changes that it can take; `owned` holds of the stations that a slot owns, and
`timely` says that network time lies in its range. -/
def StationsChange (owned : StationNo → Prop) (timely : Prop) (s t : State) : Prop :=
  ∀ n : StationNo, Relation.ReflTransGen (Station.Change (owned n) timely) (s.station n) (t.station n)

namespace StationsChange

variable {owned : StationNo → Prop} {timely : Prop} {s t u : State} {n : StationNo}

theorem of_stations (h : t.stations = s.stations) : StationsChange owned timely s t := fun n => by
  have hn : t.station n = s.station n := by rw [State.station, State.station, h]
  rw [hn]

theorem refl (s : State) : StationsChange owned timely s s := of_stations rfl

theorem of_changes {l : List Part} (h : Changes l s t) (hl : .stations ∉ l) : StationsChange owned timely s t :=
  of_stations (h.stations hl)

theorem of_windowStep (h : WindowStep s t) : StationsChange owned timely s t := of_stations h.stations

theorem trans (h : StationsChange owned timely s t) (h' : StationsChange owned timely t u) :
    StationsChange owned timely s u :=
  fun n => (h n).trans (h' n)

theorem foldl {α : Type} {f : State → α → State} (h : ∀ s a, StationsChange owned timely s (f s a)) (l : List α)
    (s : State) : StationsChange owned timely s (l.foldl f s) :=
  List.foldlRecOn (motive := StationsChange owned timely s) l f (.refl s) fun t ht a _ => ht.trans (h t a)

theorem modStation {f : Station → Station} (h : Station.Change (owned n) timely (s.station n) (f (s.station n))) :
    StationsChange owned timely s (s.modStation n f) := fun k => by
  by_cases hk : k = n
  · subst hk
    rw [State.station_modStation_same]
    exact .single h
  · rw [State.station_modStation_of_ne hk]

theorem modAllStations {f : Station → Station}
    (h : ∀ (n : StationNo) (r : Station), Relation.ReflTransGen (Station.Change (owned n) timely) r (f r)) :
    StationsChange owned timely s (s.modAllStations f) := fun n => by
  rw [State.station_modAllStations]
  exact h n _

theorem leaveService {f : Station → Station} (h : Station.Change (owned n) timely (s.station n) (f (s.station n))) :
    StationsChange owned timely s (s.leaveService n f) :=
  (modStation h).trans (of_windowStep (State.leaveService_step s n f))

theorem then_modIntake (h : StationsChange owned timely s t) (m : Slot) (f : Intake → Intake) :
    StationsChange owned timely s (t.modIntake m f) := h.trans (of_stations rfl)

theorem then_complete (h : StationsChange owned timely s t) (m : Slot) (st : Status) (v : Values) :
    StationsChange owned timely s (t.complete m st v) := h.trans (of_stations rfl)

theorem then_completeBare (h : StationsChange owned timely s t) (m : Slot) (st : Status) :
    StationsChange owned timely s (t.completeBare m st) := h.trans (of_stations rfl)

/-! ### The operations -/

theorem setArrivals {now : Nat} (h : timely → now ≤ maxUs) : StationsChange owned timely s (s.setArrivals now) :=
  modAllStations fun n r => by
    split
    · exact .refl
    · exact .single (.arrival h)

theorem takePulse (h : timely → s.timebase.Good) : StationsChange owned timely s s.takePulse := by
  unfold State.takePulse
  dsimp only
  split
  · exact .refl s
  · unfold State.armedPulse
    split
    next f hf =>
      have hnow (ht : timely) : million * f.second ≤ maxUs := by
        obtain ⟨-, -, -, -, -, -, -, -, -, -, -, hsecond⟩ := h ht
        have := hsecond f hf
        simp only [million, maxUs, maxSecond] at *
        omega
      have hset : StationsChange owned timely s (s.withTimebase (s.timebase.setTime f)) :=
        of_changes (State.withTimebase_changes s _) (by simp)
      exact (hset.trans (setArrivals hnow)).trans (of_stations rfl)
    · exact .refl s
  all_goals exact of_changes (State.withTimebase_changes s _) (by simp)

theorem takeBoundary : StationsChange owned timely s s.takeBoundary := by
  unfold State.takeBoundary
  split
  · have hclear : StationsChange owned timely s (s.setTimebase { s.timebase with boundaryDue := none }) := of_stations rfl
    have hboundary := hclear.trans (modAllStations fun n r => .single .boundary)
    exact hboundary.trans (of_windowStep (State.windowBoundary_step _ _))
  · exact .refl s

theorem scanStation : StationsChange owned timely s (s.scanStation n) := by
  unfold State.scanStation
  split
  next h =>
    refine leaveService (.silent fun hd => ?_)
    simp [Station.isSilentAt, hd, StationState.inService] at h
  · exact .refl s

theorem takeScan : StationsChange owned timely s s.takeScan := by
  unfold State.takeScan
  split
  · have hclear : StationsChange owned timely s (s.setTimebase { s.timebase with scanDue := false }) := of_stations rfl
    exact hclear.trans (foldl (fun _ _ => scanStation) _ _)
  · exact .refl s

theorem takeDueEvents : StationsChange owned timely s s.takeDueEvents := by
  have hown : StationsChange owned timely s s.takeSlewEnd.takeArmedExpiry.takeMissingPulse :=
    ((of_changes (State.takeSlewEnd_changes s) (by simp)).trans
      (of_changes (State.takeArmedExpiry_changes _) (by simp [Part.requests]))).trans
      (of_changes (State.takeMissingPulse_changes _) (by simp))
  exact ((hown.trans takeBoundary).trans (of_changes (State.takeExpiry_changes _) (by simp))).trans takeScan

theorem disableRange (m : Slot) : StationsChange owned timely s (s.disableRange m) :=
  (foldl (fun _ _ => leaveService .contextReset) _ s).trans (of_stations rfl)

theorem placeFragments (list : List (Nat × Fragment)) : StationsChange owned timely s (s.placeFragments list).1 := by
  have hone (p : State × Nat × Nat) (wf : Nat × Fragment) : StationsChange owned timely p.1 (State.placeOne p wf).1 := by
    unfold State.placeOne
    dsimp only
    split
    · exact of_windowStep ((State.modWindow_step ..).trans (State.completenessCheck_step ..))
    · refine modStation (.counters ?_)
      rintro ⟨haccepted, -, hrest⟩
      exact ⟨haccepted, raise16_le _, hrest⟩
  have hplaced (p : State × Nat × Nat) : StationsChange owned timely p.1 (list.foldl State.placeOne p).1 :=
    List.foldlRecOn (motive := fun q : State × Nat × Nat => StationsChange owned timely p.1 q.1) list _ (.refl p.1)
      fun q hq wf _ => hq.trans (hone q wf)
  have hreclaim : StationsChange owned timely s (s.reclaimFor (list.filter fun wf => s.holdsOpen wf.1).length 64) :=
    of_windowStep (State.reclaimFor_step _ 64 s)
  unfold State.placeFragments
  dsimp only
  split
  · exact hreclaim
  · exact hreclaim.trans (hplaced (_, 0, 0))

theorem countAtStation {rec : IntakeRecord} {f : StationCounters → StationCounters} (h : ∀ c, c.Good → (f c).Good) :
    StationsChange owned timely s (s.countAtStation rec f) := by
  unfold State.countAtStation
  split
  · exact modStation (.counters (h _))
  · exact .refl s

theorem refuseBlock (m : Slot) (rec : IntakeRecord) (code : RefusalCode) :
    StationsChange owned timely s (s.refuseBlock m rec code) := by
  have hcount : StationsChange owned timely s (s.countAtStation rec fun c =>
      { c with
        refusals := raise16 c.refusals
        duplicates := if code = .duplicate then raise16 c.duplicates else c.duplicates }) :=
    countAtStation fun c ⟨haccepted, hlate, hduplicates, hgaps, _, hrest⟩ =>
      ⟨haccepted, hlate, by dsimp only; split; exacts [raise16_le _, hduplicates], hgaps, raise16_le _, hrest⟩
  exact hcount.trans (of_stations rfl)

theorem refuseProbe (m : Slot) (rec : IntakeRecord) (code : RefusalCode) :
    StationsChange owned timely s (s.refuseProbe m rec code) := by
  have hcount : StationsChange owned timely s (s.countAtStation rec fun c =>
      { c with refusals := raise16 c.refusals, probesRefused := raise16 c.probesRefused }) :=
    countAtStation fun c ⟨haccepted, hlate, hduplicates, hgaps, _, hprobes, _, hsteps⟩ =>
      ⟨haccepted, hlate, hduplicates, hgaps, raise16_le _, hprobes, raise16_le _, hsteps⟩
  exact hcount.trans (of_stations rfl)

theorem blockOutcome (m : Slot) (rec : IntakeRecord) {stamp : Option Nat} (hstamp : ∀ x ∈ stamp, x ≤ maxUs)
    (hnow : timely → s.timebase.us ≤ maxUs) (entered dropped : Nat) :
    StationsChange owned timely s (s.blockOutcome m n rec stamp entered dropped) := by
  have hblock : StationsChange owned timely s (s.modStation n fun r => r.afterBlock rec stamp) :=
    modStation (.block rec hstamp)
  unfold State.blockOutcome
  dsimp only
  split
  · exact hblock.trans (of_stations rfl)
  · exact then_modIntake (hblock.trans (modStation (.accepted hnow))) _ _

theorem takeBlock (h : timely → s.timebase.us ≤ maxUs) (m : Slot) (rec : IntakeRecord) :
    StationsChange owned timely s (s.takeBlock m rec) := by
  unfold State.takeBlock
  split
  · exact refuseBlock m rec _
  next n c hjudge =>
    obtain ⟨capture, hcorrect⟩ := State.judgeBlock_ok hjudge
    have hplaced := placeFragments (owned := owned) (timely := timely) (s := s) c.fragments
    have htime := (State.placeFragments_changes s c.fragments).timebase (by simp)
    split
    next s1 hs1 =>
      rw [hs1] at hplaced
      exact hplaced.trans (refuseBlock m rec _)
    next s1 entered dropped hs1 =>
      rw [hs1] at hplaced htime
      exact hplaced.trans (blockOutcome m rec (correct_ok_stamp hcorrect) (by rw [htime]; exact h) entered dropped)

theorem takeProbe (m : Slot) (rec : IntakeRecord) : StationsChange owned timely s (s.takeProbe m rec) := by
  unfold State.takeProbe
  split
  · exact refuseProbe m rec _
  next n p hjudge =>
    obtain ⟨hmode, ht3⟩ := State.judgeProbe_ok hjudge
    exact then_modIntake (modStation (.probe s.params s.part hmode ht3)) _ _

theorem takeHead (h : timely → s.timebase.us ≤ maxUs) (m : Slot) (rec : IntakeRecord) :
    StationsChange owned timely s (s.takeHead m rec) := by
  have hpop : StationsChange owned timely s (s.popQueue m) := of_changes (State.popQueue_changes s m) (by simp)
  have htime : (s.popQueue m).timebase = s.timebase := (State.popQueue_changes s m).timebase (by simp)
  unfold State.takeHead
  split
  · exact of_stations rfl
  · exact hpop.trans (takeBlock (by rw [htime]; exact h) m rec)
  · exact hpop.trans (takeProbe m rec)

theorem takeRecord (h : timely → s.timebase.us ≤ maxUs) : StationsChange owned timely s s.takeRecord := by
  unfold State.takeRecord
  split
  · exact .refl s
  · split
    · exact .refl s
    · exact (takeHead h _ _).trans (of_stations rfl)

/-! ### The requests -/

section Requests

variable {m : Slot} (ho : ∀ n, s.owns m n = true → owned n)

theorem ownerRequest {act : StationNo → State}
    (h : ∀ n, s.owns m n = true → StationsChange owned timely s (act n)) :
    StationsChange owned timely s (s.ownerRequest m act) := by
  unfold State.ownerRequest
  split
  · exact of_stations rfl
  · split
    next hn => exact h _ hn
    · exact of_stations rfl

include ho in
theorem requestEnableStation (hnow : timely → s.timebase.us ≤ maxUs) :
    StationsChange owned timely s (s.requestEnableStation m) :=
  ownerRequest fun n hn => by
    split
    next hd => exact then_completeBare (modStation (.enabled (ho n hn) hd hnow)) _ _
    · exact of_stations rfl

theorem requestDisableStation : StationsChange owned timely s (s.requestDisableStation m) :=
  ownerRequest fun n _ => by
    split
    · exact of_stations rfl
    · exact then_completeBare (leaveService .disabled) _ _

theorem askedConfig_good {c : StationConfig} (h : s.askedConfig m = some c) : c.Good := by
  unfold State.askedConfig at h
  split at h
  · cases h
  · split at h
    next hin =>
      cases h
      obtain ⟨hrate, hlow, hhigh, hlatency, hjitter⟩ := hin
      exact ⟨hrate, ⟨hlow, hhigh⟩, hlatency, hjitter⟩
    · cases h

theorem requestConfigureStation : StationsChange owned timely s (s.requestConfigureStation m) :=
  ownerRequest fun n _ => by
    split
    · exact of_stations rfl
    next c hc =>
      split
      next hs => exact then_complete (modStation (.staged (askedConfig_good hc) hs.1)) _ _ _
      · exact then_complete (modStation (.configured (askedConfig_good hc))) _ _ _

theorem requestClearCounters : StationsChange owned timely s (s.requestClearCounters m) :=
  ownerRequest fun n _ => then_completeBare (modStation (.counters fun _ => (by decide : StationCounters.zero.Good))) _ _

theorem resetContext : StationsChange owned timely s (s.resetContext m) := by
  have hshares : StationsChange owned timely s ((s.modCtx m Context.resetShares).releaseAll m).1 :=
    (of_stations rfl : StationsChange owned timely s (s.modCtx m Context.resetShares)).trans
      (of_windowStep (State.releaseAll_step _ m))
  have hcancel := (hshares.trans (disableRange m)).trans (of_changes (State.cancelSetTime_changes _ m) (by simp))
  unfold State.resetContext
  exact hcancel.trans (of_stations (State.postResult_stations ..))

end Requests

/-- Every act changes the records as they can be changed. -/
theorem act {c : Instr} (hc : isFullReset c = false) (hidle : s.IdleFor c) (h : timely → s.TimingGood)
    (ho : ∀ m n, s.owns m n = true → owned n) : StationsChange owned timely s (act c s) := by
  have quiet (hl : Part.stations ∉ touches c) : StationsChange owned timely s (Machine.act c s) :=
    of_changes (act_changes hc hidle) hl
  have htime (ht : timely) : s.timebase.Good := (h ht).2.1
  have hnow (ht : timely) : s.timebase.us ≤ maxUs := (htime ht).1
  cases c with
  | oscillatorCycle => exact takeDueEvents.trans (of_stations rfl)
  | refPulse _ => exact takePulse htime
  | boundaryEvent => exact takeBoundary
  | scanEvent => exact takeScan
  | recordTaking => exact takeRecord hnow
  | enableStation m => exact requestEnableStation (ho m) hnow
  | disableStation m => exact requestDisableStation
  | configureStation m => exact requestConfigureStation
  | clearCounters m => exact requestClearCounters
  | contextReset m _ => exact resetContext
  | fullReset _ => cases hc
  | _ => exact quiet (by simp [touches, Part.requests])

end StationsChange

end Sys2Proof.Machine

/-! PROOFS. Every step keeps the station records in form (R22 to R60), and the ranges apart with every enabled station owned
(R24, R25, R42). -/

namespace Sys2Proof.Machine

/-! ### The records stay in form -/

/-- A change that is timely keeps every record good. -/
theorem StationsChange.stationsGood {owned : StationNo → Prop} {timely : Prop} {s t : State}
    (h : StationsChange owned timely s t) (ht : timely) (hs : s.StationsGood) : t.StationsGood := fun n =>
  (h n).head_induction_on (motive := fun r _ => r.Good → (t.station n).Good) id (fun hc _ ih hr => ih (hc.good ht hr)) (hs n)

namespace State

/-- The parts that the records rest on, with the timing that bounds their last arrivals. -/
def recordParts : Part → Bool
  | .stations => true
  | p => timingParts p

theorem stationsGood_restsOn : RestsOn (fun s => s.TimingGood ∧ s.StationsGood) recordParts := by
  rintro s t hsame ⟨htiming, hstations⟩
  refine ⟨timingGood_restsOn s t (fun p hp => hsame p ?_) htiming, fun n => ?_⟩
  · cases p with
    | stations => rfl
    | _ => exact hp
  · have h : t.stations = s.stations := hsame .stations rfl
    rw [State.station, h]
    exact hstations n

end State

/-- The records of a full reset (R43). -/
theorem fullReset_station (s : State) (line : ResetLine) (n : StationNo) :
    (act (.fullReset line) s).station n = Station.reset := by
  cases line <;> simp [act, State.setResetLine, State.fullResetValues, State.station]

theorem Station.reset_good : Station.reset.Good := by
  refine ⟨by decide, by decide, by decide, by decide, by decide, by decide, by decide, by decide, by decide⟩

/-- Settles O27: every record has taken changes that keep it good. -/
theorem stationsStayGood : Obligations.StationsStayGood := by
  intro s t htiming hs hnext
  refine (step_keeps State.stationsGood_restsOn (fun sent => ?_) (fun s line => ?_) (fun c s hc hidle h => ?_)
    ⟨htiming, hs⟩ hnext).2
  · cases sent <;> simp [edges, State.recordParts, State.timingParts]
  · refine ⟨fullReset_timingGood s line, fun n => ?_⟩
    rw [fullReset_station]
    exact Station.reset_good
  · obtain ⟨htiming, hs⟩ := h
    have hchange := StationsChange.act (owned := fun n => ∃ m, s.owns m n = true) (timely := True) hc hidle
      (fun _ => htiming) fun m n hm => ⟨m, hm⟩
    exact ⟨act_timingGood hc hidle htiming, hchange.stationsGood trivial hs⟩

/-! ### The ranges stay apart -/

/-- A change leaves a station DISABLED unless its owner enables it. -/
theorem StationsChange.disabled {owned : StationNo → Prop} {timely : Prop} {s t : State} {n : StationNo}
    (h : StationsChange owned timely s t) (ho : ¬owned n) (hs : (s.station n).state = .disabled) :
    (t.station n).state = .disabled :=
  (h n).head_induction_on (motive := fun r _ => r.state = .disabled → (t.station n).state = .disabled) id
    (fun hc _ ih hr => ih (hc.disabled_of ho hr)) hs

theorem mem_rangeSizes {k : Nat} : rangeSizes.contains k = true ↔ k ∈ [1, 2, 4, 8, 16, 32, 64, 128] := by
  rw [List.contains_iff_mem]
  rfl

/-- A range that the arguments of SET RANGE ask for is in form (R24, R25). -/
theorem askedRange_good {base size : Nat} {r : Option Range} (h : askedRange base size = some r) : ∀ x ∈ r, x.Good := by
  unfold askedRange at h
  split at h
  · cases h
    simp
  · split at h
    next hin =>
      obtain ⟨hsize, hbase, hend⟩ := hin
      cases h
      rintro x hx
      cases hx
      exact ⟨mem_rangeSizes.mp hsize, hbase, hend⟩
    · cases h

/-- Two entries that share a station meet (R25). -/
theorem Range.meets_of_covers {a b : Range} {n : Nat} (ha : a.covers n = true) (hb : b.covers n = true) :
    a.meets b = true := by
  simp only [Range.covers, Range.meets, Bool.and_eq_true, decide_eq_true_eq] at *
  omega

namespace State

variable {s t : State} {m : Slot} {n : StationNo}

/-- A slot owns the stations that its entry covers (R24). -/
theorem owns_eq (s : State) (m : Slot) (n : StationNo) : s.owns m n = rangeCovers (s.ctx m).range n.val := by
  unfold owns rangeCovers
  cases (s.ctx m).range <;> rfl

theorem mem_rangeStations : n ∈ s.rangeStations m ↔ s.owns m n = true := by simp [rangeStations]

/-- The parts that the range table rests on. -/
def rangeParts : Part → Bool
  | .stations | .range _ => true
  | _ => false

theorem rangesGood_restsOn : RestsOn State.RangesGood rangeParts := by
  rintro s t hsame ⟨hform, hapart, howned⟩
  have hrange (m : Slot) : (t.ctx m).range = (s.ctx m).range := hsame (.range m) rfl
  have howns (m : Slot) (n : StationNo) : t.owns m n = s.owns m n := by rw [owns_eq, owns_eq, hrange]
  have hstations : t.stations = s.stations := hsame .stations rfl
  refine ⟨fun m => ?_, fun m k n => ?_, fun n => ?_⟩
  · rw [hrange]
    exact hform m
  · rw [howns, howns]
    exact hapart m k n
  · simp only [howns, station, hstations]
    exact howned n

/-- With the entries as they were, a change of the stations keeps every enabled station owned. -/
theorem RangesGood.of_stationsChange {timely : Prop} (h : s.RangesGood)
    (hc : StationsChange (fun n => ∃ m, s.owns m n = true) timely s t) (hr : ∀ m, (t.ctx m).range = (s.ctx m).range) :
    t.RangesGood := by
  obtain ⟨hform, hapart, howned⟩ := h
  have howns (m : Slot) (n : StationNo) : t.owns m n = s.owns m n := by rw [owns_eq, owns_eq, hr]
  refine ⟨fun m => ?_, fun m k n => ?_, fun n hn => ?_⟩
  · rw [hr]
    exact hform m
  · rw [howns, howns]
    exact hapart m k n
  · simp only [howns]
    by_contra hno
    exact hn (hc.disabled hno (not_not.mp fun hs => hno (howned n hs)))

/-- The entry of one slot exchanged keeps the table good, if the new entry is in form, meets no other, and leaves no
enabled station without its owner (R24, R25, R42). -/
theorem RangesGood.exchange {r : Option Range} (h : s.RangesGood) (hr : ∀ x ∈ r, x.Good)
    (hapart : ∀ k n, k ≠ m → s.owns k n = true → rangeCovers r n.val = false)
    (howned : ∀ n, s.owns m n = true → (s.station n).state ≠ .disabled → rangeCovers r n.val = true) :
    (s.setRangeEntry m r).RangesGood := by
  obtain ⟨hform, hapart', howned'⟩ := h
  have hsame (n : StationNo) : (s.setRangeEntry m r).owns m n = rangeCovers r n.val := by
    rw [owns_eq, ctx_setRangeEntry_same]
  have hother {k : Slot} (hk : k ≠ m) (n : StationNo) : (s.setRangeEntry m r).owns k n = s.owns k n := by
    rw [owns_eq, owns_eq, setRangeEntry, ctx_modCtx_of_ne hk]
  refine ⟨fun k => ?_, fun k l n hkn hln => ?_, fun n hn => ?_⟩
  · by_cases hk : k = m
    · subst hk
      rw [ctx_setRangeEntry_same]
      exact hr
    · rw [setRangeEntry, ctx_modCtx_of_ne hk]
      exact hform k
  · by_cases hk : k = m <;> by_cases hl : l = m
    · rw [hk, hl]
    · subst hk
      rw [hsame] at hkn
      rw [hother hl] at hln
      rw [hapart l n hl hln] at hkn
      cases hkn
    · subst hl
      rw [hsame] at hln
      rw [hother hk] at hkn
      rw [hapart k n hk hkn] at hln
      cases hln
    · rw [hother hk] at hkn
      rw [hother hl] at hln
      exact hapart' k l n hkn hln
  · obtain ⟨k, hk⟩ := howned' n hn
    by_cases hkm : k = m
    · subst hkm
      exact ⟨k, by rw [hsame]; exact howned n hk hn⟩
    · exact ⟨k, by rw [hother hkm]; exact hk⟩

/-- No station of another slot lies in a new range that overlaps none (R25). -/
theorem rangeCovers_of_not_overlaps {r : Option Range} (h : s.rangeOverlaps m r = false) {k : Slot} (hk : k ≠ m)
    (hn : s.owns k n = true) : rangeCovers r n.val = false := by
  cases r with
  | none => rfl
  | some a =>
    rw [owns_eq] at hn
    cases hb : (s.ctx k).range with
    | none => rw [hb] at hn; cases hn
    | some b =>
      rw [hb] at hn
      by_contra ha
      refine absurd h (Bool.eq_false_iff.not.mpr (not_not.mpr ?_))
      simp only [rangeOverlaps, List.any_eq_true, List.mem_finRange, true_and, Bool.and_eq_true, decide_eq_true_eq,
        Option.any_some]
      refine ⟨k, hk, ?_⟩
      rw [hb]
      exact Range.meets_of_covers (by simpa [rangeCovers] using ha) hn

/-- No enabled station of the slot lies outside a new range that strands none (R25). -/
theorem rangeCovers_of_not_strands {r : Option Range} (h : s.rangeStrands m r = false) (hn : s.owns m n = true)
    (hs : (s.station n).state ≠ .disabled) : rangeCovers r n.val = true := by
  by_contra hno
  refine absurd h (Bool.eq_false_iff.not.mpr (not_not.mpr ?_))
  simp only [rangeStrands, List.any_eq_true, mem_rangeStations, Bool.and_eq_true, decide_eq_true_eq]
  exact ⟨n, hn, hs, by simpa using hno⟩

theorem requestSetRange_rangesGood (h : s.RangesGood) (hidle : (s.ctx m).request.inFlight = false) :
    (s.requestSetRange m).RangesGood := by
  have bare (st : Status) : (s.completeBare m st).RangesGood :=
    rangesGood_restsOn.keep (completeBare_changes hidle st) (by simp [rangeParts]) h
  unfold requestSetRange
  split
  · exact bare _
  next r hr =>
    split
    · exact bare _
    next hoverlap =>
      split
      · exact bare _
      next hstrand =>
        have hset := h.exchange (m := m) (askedRange_good hr)
          (fun k n hk hn => rangeCovers_of_not_overlaps (Bool.eq_false_of_not_eq_true hoverlap) hk hn)
          (fun n hn hs => rangeCovers_of_not_strands (Bool.eq_false_of_not_eq_true hstrand) hn hs)
        have hidle' : ((s.setRangeEntry m r).ctx m).request.inFlight = false := by simpa using hidle
        exact rangesGood_restsOn.keep (complete_changes _ m hidle' _ _) (by simp [rangeParts]) hset

/-- A context reset disables the stations of the range and leaves every other (R42). -/
theorem station_disableRange (s : State) (m : Slot) (n : StationNo) :
    (s.disableRange m).station n = if s.owns m n = true then (s.station n).contextReset else s.station n := by
  have hfold (l : List StationNo) (hl : l.Nodup) (t : State) :
      (l.foldl (fun t n => t.leaveService n Station.contextReset) t).station n =
        if n ∈ l then (t.station n).contextReset else t.station n := by
    induction l generalizing t with
    | nil => rfl
    | cons k l ih =>
      obtain ⟨hk, hl⟩ := List.nodup_cons.mp hl
      rw [List.foldl_cons, ih hl, station_leaveService]
      by_cases hn : n = k
      · subst hn
        simp [hk]
      · simp [hn]
  have hnodup : (s.rangeStations m).Nodup := (List.nodup_finRange 128).filter _
  rw [disableRange, setRangeEntry_station, hfold _ hnodup]
  simp only [mem_rangeStations]

theorem disableRange_rangesGood (h : s.RangesGood) : (s.disableRange m).RangesGood := by
  have hfold : StationsChange (fun n => ∃ m, s.owns m n = true) True s
      ((s.rangeStations m).foldl (fun t n => t.leaveService n Station.contextReset) s) :=
    .foldl (fun _ _ => .leaveService .contextReset) _ _
  have hstep (k : Slot) :
      (((s.rangeStations m).foldl (fun t n => t.leaveService n Station.contextReset) s).ctx k).range = (s.ctx k).range :=
    List.foldlRecOn (motive := fun t : State => (t.ctx k).range = (s.ctx k).range) _ _ rfl fun t ht n _ =>
      ((leaveService_step t n _).range k).trans ht
  refine (h.of_stationsChange hfold hstep).exchange (by simp) (fun _ _ _ _ => rfl) fun n hn hs => ?_
  have hdisabled := station_disableRange s m n
  rw [disableRange, setRangeEntry_station] at hdisabled
  rw [owns_eq, hstep, ← owns_eq] at hn
  rw [hdisabled, if_pos hn] at hs
  exact absurd rfl hs

theorem resetContext_rangesGood (h : s.RangesGood) : (s.resetContext m).RangesGood := by
  have hshares : ((s.modCtx m Context.resetShares).releaseAll m).1.RangesGood :=
    rangesGood_restsOn.keep (.of_windowStep (releaseAll_step _ m)) (by simp [rangeParts]) <|
      rangesGood_restsOn.keep (resetShares_changes s m) (by simp [rangeParts]) h
  refine rangesGood_restsOn.keep (postResult_changes _ m _ _ _) (by simp [rangeParts]) <|
    rangesGood_restsOn.keep (cancelSetTime_changes _ m) (by simp [rangeParts]) (disableRange_rangesGood hshares)

end State

/-- Every act keeps the range table good. -/
theorem act_rangesGood {c : Instr} {s : State} (hc : isFullReset c = false) (hidle : s.IdleFor c) (h : s.RangesGood) :
    (act c s).RangesGood := by
  have quiet (hl : ∀ m, Part.range m ∉ touches c) : (act c s).RangesGood :=
    h.of_stationsChange (StationsChange.act (timely := False) hc hidle False.elim fun m n hm => ⟨m, hm⟩)
      fun m => (act_changes hc hidle).range (hl m)
  cases c with
  | setRange m => exact State.requestSetRange_rangesGood h (hidle m rfl)
  | contextReset m _ => exact State.resetContext_rangesGood h
  | fullReset _ => cases hc
  | _ => exact quiet (by simp [touches, Part.requests, State.cycleParts, State.takingParts])

/-- Settles O26: every act keeps the range table good. -/
theorem rangesStayGood : Obligations.RangesStayGood := fun _ _ hs hnext =>
  step_keeps State.rangesGood_restsOn (fun sent => by cases sent <;> simp [edges, State.rangeParts])
    (fun s line => by
      have hctx (m : Slot) : (act (.fullReset line) s).ctx m = Context.reset := by
        cases line <;> simp [act, State.setResetLine, State.fullResetValues, State.ctx]
      refine ⟨fun m => ?_, fun m k n hm => ?_, fun n hn => ?_⟩
      · simp [hctx, Context.reset]
      · rw [State.owns_eq, hctx] at hm
        cases hm
      · rw [fullReset_station] at hn
        exact absurd rfl hn)
    (fun _ _ hc hidle h => act_rangesGood hc hidle h) hs hnext

end Sys2Proof.Machine

/-! PROOFS. Intakes and capture rings stay good (R45, R80 to R82, R85, R94), and CLOSED stays pending exactly while notices
wait (R125, R140). -/

namespace Sys2Proof.Machine

/-! ### Intakes and capture rings -/

/-- A context's intake and capture ring are good (R45, R80, R94). -/
def Context.IntakeGood (c : Context) : Prop :=
  c.intake.Good ∧ c.capture.ring.length ≤ 8 ∧ c.capture.nextSeq ≤ 255

theorem Intake.Good.of_queuePart {i j : Intake} (h : i.Good) (he : j.queuePart = i.queuePart) : j.Good := by
  have part (x : Intake) : x.Good ↔ x.queuePart.Good := Iff.rfl
  rw [part, he]
  exact h

/-- A capture ring with one more entry (R44, R45). -/
theorem Capture.add_bounds {c : Capture} (h : c.ring.length ≤ 8) (us : Nat) :
    (c.add us).ring.length ≤ 8 ∧ (c.add us).nextSeq ≤ 255 := by
  refine ⟨?_, Nat.le_of_lt_succ (Nat.mod_lt _ (by decide))⟩
  unfold Capture.add
  dsimp only
  split <;> simp <;> omega

/-- A commit to a queue of fewer than 16 records (R79, R80). -/
theorem Intake.Good.join {i : Intake} (h : i.Good) (hroom : i.queue.length < 16) (v : Word) : (i.join v).Good := by
  obtain ⟨-, -, hthreshold, -, hcounters⟩ := h
  have hne : (i.join v).queue ≠ [] := by simp [Intake.join, Intake.holdAtThreshold]
  exact ⟨by simp [Intake.join, Intake.holdAtThreshold]; omega, fun _ => hne, hthreshold, fun _ => hne, hcounters⟩

namespace State

variable {s t : State} {m : Slot} {rec : IntakeRecord}

/-- The parts that intakes and rings are made of. -/
def intakeParts : Part → Bool
  | .intake _ | .capture _ => true
  | _ => false

theorem intakesGood_restsOn : RestsOn State.IntakesGood intakeParts := by
  intro s t hsame hs m
  obtain ⟨hintake, hring⟩ := hs m
  have hq : (t.ctx m).intake.queuePart = (s.ctx m).intake.queuePart := hsame (.intake m) rfl
  have hc : (t.ctx m).capture = (s.ctx m).capture := hsame (.capture m) rfl
  exact ⟨hintake.of_queuePart hq, by rw [hc]; exact hring⟩

theorem IntakesGood.modCtx (h : s.IntakesGood) {f : Context → Context} (hf : (f (s.ctx m)).IntakeGood) :
    (s.modCtx m f).IntakesGood := fun k => by
  by_cases hk : k = m
  · subst hk
    rw [ctx_modCtx_same]
    exact hf
  · rw [ctx_modCtx_of_ne hk]
    exact h k

theorem IntakesGood.modIntake (h : s.IntakesGood) {f : Intake → Intake} (hf : (f (s.ctx m).intake).Good) :
    (s.modIntake m f).IntakesGood := h.modCtx ⟨hf, (h m).2⟩

theorem takeCapture_intakesGood (h : s.IntakesGood) : (s.takeCapture m).IntakesGood := by
  unfold takeCapture
  split
  · exact h.modCtx ⟨(h m).1, Capture.add_bounds (h m).2.1 _⟩
  · exact h

theorem commitWord_intakesGood (h : s.IntakesGood) (v : Word) : (s.commitWord m v).IntakesGood := by
  unfold commitWord
  split
  next hroom => exact intakesGood_restsOn.keep (answer_changes _ _ _) (by simp) (h.modIntake ((h m).1.join hroom v))
  · exact intakesGood_restsOn.keep (answer_changes _ _ _) (by simp) h

/-- The head record leaves an ACTIVE intake (R80, R81). -/
theorem popQueue_intakesGood (h : s.IntakesGood) (hactive : (s.ctx m).intake.stopped = false) :
    (s.popQueue m).IntakesGood := fun k => by
  by_cases hk : k = m
  · subst hk
    obtain ⟨⟨hlength, -, hthreshold, -, hcounters⟩, hring⟩ := h k
    have htail : (s.ctx k).intake.queue.tail.length ≤ 16 := by simp; omega
    rw [ctx_popQueue_same]
    split
    · exact ⟨⟨htail, by simp, hthreshold, by simp [hactive], hcounters⟩, hring⟩
    next hno => exact ⟨⟨htail, fun hh ht => hno ⟨ht, hh⟩, hthreshold, by simp [hactive], hcounters⟩, hring⟩
  · rw [ctx_popQueue_of_ne hk]
    exact h k

theorem refuseAtSlot_intakesGood (h : s.IntakesGood) (kind : RecordKind) (code : RefusalCode) :
    (s.refuseAtSlot m rec kind code).IntakesGood := by
  have hcount : (s.modIntake m fun i => { i with refused := raise16 i.refused }).IntakesGood := by
    obtain ⟨hlength, hhold, hthreshold, hstopped, haccepted, hpart, hlate, -, hprobes⟩ := (h m).1
    exact h.modIntake ⟨hlength, hhold, hthreshold, hstopped, haccepted, hpart, hlate, raise16_le _, hprobes⟩
  exact hcount.modIntake (hcount m).1

theorem countAtStation_intakesGood (h : s.IntakesGood) (f : StationCounters → StationCounters) :
    (s.countAtStation rec f).IntakesGood :=
  intakesGood_restsOn.keep (countAtStation_changes s rec f) (by simp [intakeParts]) h

theorem takeProbe_intakesGood (h : s.IntakesGood) : (s.takeProbe m rec).IntakesGood := by
  unfold takeProbe
  split
  · exact refuseAtSlot_intakesGood (countAtStation_intakesGood h _) _ _
  next n p _ =>
    have hstation : (s.modStation n fun r => r.processProbe p s.params s.part).IntakesGood := h
    obtain ⟨hlength, hhold, hthreshold, hstopped, haccepted, hpart, hlate, hrefused, -⟩ := (hstation m).1
    exact hstation.modIntake
      ⟨hlength, hhold, hthreshold, hstopped, haccepted, hpart, hlate, hrefused, raise16_le _⟩

theorem blockOutcome_intakesGood (h : s.IntakesGood) (n : StationNo) (stamp : Option Nat) (entered dropped : Nat) :
    (s.blockOutcome m n rec stamp entered dropped).IntakesGood := by
  obtain ⟨hlength, hhold, hthreshold, hstopped, haccepted, hpart, hlate, hrest⟩ := (h m).1
  unfold blockOutcome
  dsimp only
  split
  · exact IntakesGood.modIntake (s := s.modStation n fun r => r.afterBlock rec stamp) h
      ⟨hlength, hhold, hthreshold, hstopped, haccepted, hpart, raise16_le _, hrest⟩
  · refine IntakesGood.modIntake (s := (s.modStation n fun r => r.afterBlock rec stamp).modStation n fun r =>
      r.afterAccepted s.timebase.us) h ?_
    split
    · exact ⟨hlength, hhold, hthreshold, hstopped, raise16_le _, hpart, hlate, hrest⟩
    · exact ⟨hlength, hhold, hthreshold, hstopped, haccepted, raise16_le _, hlate, hrest⟩

theorem takeBlock_intakesGood (h : s.IntakesGood) : (s.takeBlock m rec).IntakesGood := by
  unfold takeBlock
  split
  · exact refuseAtSlot_intakesGood (countAtStation_intakesGood h _) _ _
  next n c _ =>
    have hplaced : (s.placeFragments c.fragments).1.IntakesGood :=
      intakesGood_restsOn.keep (placeFragments_changes s _) (by simp [intakeParts]) h
    split
    next hs1 =>
      rw [hs1] at hplaced
      exact refuseAtSlot_intakesGood (countAtStation_intakesGood hplaced _) _ _
    next hs1 =>
      rw [hs1] at hplaced
      exact blockOutcome_intakesGood hplaced _ _ _ _

theorem takeRecord_intakesGood (h : s.IntakesGood) : s.takeRecord.IntakesGood := by
  unfold takeRecord
  split
  · exact h
  next m hm =>
    obtain ⟨hqueue, hactive⟩ := eligible_iff.mp (eligible_of_servedSlot hm)
    split
    · exact h
    next rec rest hrec =>
      show (s.takeHead m rec).IntakesGood
      unfold takeHead
      split
      · obtain ⟨hlength, hhold, hthreshold, -, hcounters⟩ := (h m).1
        have hstopped : (s.modIntake m fun i => { i with stopped := true }).IntakesGood :=
          h.modIntake ⟨hlength, hhold, hthreshold, fun _ => hqueue, hcounters⟩
        exact intakesGood_restsOn.keep (raise_changes _ m (by decide)) (by simp) (hstopped.modIntake (hstopped m).1)
      · exact takeBlock_intakesGood (popQueue_intakesGood h hactive)
      · exact takeProbe_intakesGood (popQueue_intakesGood h hactive)

theorem requestSetThreshold_intakesGood (h : s.IntakesGood) (hidle : (s.ctx m).request.inFlight = false) :
    (s.requestSetThreshold m).IntakesGood := by
  have done {t : State} (ht : t.IntakesGood) (hidle : (t.ctx m).request.inFlight = false) (st : Status) :
      (t.completeBare m st).IntakesGood :=
    intakesGood_restsOn.keep (completeBare_changes hidle st) (by simp [intakeParts]) ht
  unfold requestSetThreshold
  split
  next hin =>
    obtain ⟨hlength, hhold, -, hcounters⟩ := (h m).1
    have hnew : s.argNat m 0 ∈ [4, 8, 12, 15] := List.contains_iff_mem.mp hin
    refine done (h.modIntake ⟨hlength, fun hh hq => ?_, hnew, hcounters⟩) (by simpa using hidle) _
    simp only [Intake.holdAtThreshold] at hh hq
    rw [hq, Bool.or_eq_true, decide_eq_true_eq] at hh
    rcases hh with hh | hh
    · exact hhold hh hq
    · rw [List.length_nil, Nat.le_zero] at hh
      rw [hh] at hnew
      exact absurd hnew (by decide)
  · exact done h hidle _

/-- What INTAKE RESET does to its slot (R86). -/
theorem resetIntakeQueue_eq (s : State) (m : Slot) :
    s.resetIntakeQueue m = s.modCtx m fun c => { c with
      intake := { c.intake with queue := [], staging := Vector.replicate 8 0, stopped := false, hold := false }
      attention := if c.intake.hold then c.attention.raise .intakeOpen else c.attention } := by
  unfold resetIntakeQueue clearHold
  cases hh : (s.ctx m).intake.hold with
  | true =>
    rw [ctx_modIntake_same, if_pos hh, raise, modAttention, modIntake, modIntake, modCtx_modCtx, modCtx_modCtx, modCtx,
      modCtx]
    simp only [hh, if_true]
  | false =>
    have hno : ¬((s.ctx m).intake.hold = true) := by simp [hh]
    rw [ctx_modIntake_same, if_neg hno, modIntake, modCtx, modCtx]
    simp [hh]

theorem requestIntakeReset_intakesGood (h : s.IntakesGood) (hidle : (s.ctx m).request.inFlight = false) :
    (s.requestIntakeReset m).IntakesGood := by
  obtain ⟨⟨-, -, hthreshold, -, hcounters⟩, hring⟩ := h m
  have hreset : (s.resetIntakeQueue m).IntakesGood := by
    rw [resetIntakeQueue_eq]
    exact h.modCtx ⟨⟨by simp, by simp, hthreshold, by simp, hcounters⟩, hring⟩
  refine intakesGood_restsOn.keep (completeBare_changes ?_ _) (by simp [intakeParts]) hreset
  rw [resetIntakeQueue_eq, ctx_modCtx_same]
  exact hidle

/-- A context reset leaves an intake and a ring as after full reset (R171). -/
theorem resetContext_intakesGood (h : s.IntakesGood) : (s.resetContext m).IntakesGood := by
  have hshares : (s.modCtx m Context.resetShares).IntakesGood :=
    h.modCtx ⟨(by decide : Intake.reset.Good), (by decide : Capture.reset.ring.length ≤ 8),
      (by decide : Capture.reset.nextSeq ≤ 255)⟩
  refine intakesGood_restsOn.keep (postResult_changes _ m _ _ _) (by simp [intakeParts]) <|
    intakesGood_restsOn.keep (cancelSetTime_changes _ m) (by simp [intakeParts]) <|
      intakesGood_restsOn.keep (disableRange_changes _ m) (by simp [intakeParts]) <|
        intakesGood_restsOn.keep (.of_windowStep (releaseAll_step _ m)) (by simp [intakeParts]) hshares

end State

/-- Every act keeps intakes and rings good. -/
theorem act_intakesGood {c : Instr} {s : State} (hc : isFullReset c = false) (hidle : s.IdleFor c) (h : s.IntakesGood) :
    (act c s).IntakesGood := by
  have quiet (hl : ∀ p ∈ touches c, State.intakeParts p = false) : (act c s).IntakesGood :=
    State.intakesGood_restsOn.keep (act_changes hc hidle) hl h
  cases c with
  | capturePulse m _ => exact State.takeCapture_intakesGood h
  | commit m v => exact State.commitWord_intakesGood h v
  | recordTaking => exact State.takeRecord_intakesGood h
  | intakeReset m => exact State.requestIntakeReset_intakesGood h (hidle m rfl)
  | setThreshold m => exact State.requestSetThreshold_intakesGood h (hidle m rfl)
  | contextReset m way =>
    rw [act]
    exact State.resetContext_intakesGood h
  | fullReset _ => cases hc
  | oscillatorCycle | refPulse _ | armedExpiry =>
    exact quiet (by simp [touches, Part.requests, State.cycleParts, State.intakeParts, or_imp, forall_and])
  | _ => exact quiet (by simp [touches, State.intakeParts])

/-! ### Notices and the CLOSED flag -/

/-- CLOSED is pending at a context exactly while its queue, of at most 8, holds a notice (R125, R140). -/
def Context.NoticeGood (c : Context) : Prop :=
  c.reader.notices.length ≤ 8 ∧ (c.attention.pending.getLsbD 3 = true ↔ c.reader.notices ≠ [])

theorem Context.NoticeGood.of_noticePart {c d : Context} (h : c.NoticeGood) (he : d.noticePart = c.noticePart) :
    d.NoticeGood := by
  have hnotices : d.reader.notices = c.reader.notices := congrArg Prod.fst he
  have hpending : d.attention.pending.getLsbD 3 = c.attention.pending.getLsbD 3 := congrArg Prod.snd he
  rw [NoticeGood, hnotices, hpending]
  exact h

/-- From s to t every slot's notices and CLOSED flag that agreed still agree. -/
def NoticesKept (s t : State) : Prop := ∀ m : Slot, (s.ctx m).NoticeGood → (t.ctx m).NoticeGood

namespace NoticesKept

variable {s t u : State}

theorem refl (s : State) : NoticesKept s s := fun _ => id

theorem trans (h : NoticesKept s t) (h' : NoticesKept t u) : NoticesKept s u := fun m hm => h' m (h m hm)

theorem of_changes {l : List Part} (h : Changes l s t) (hl : .notices ∉ l) : NoticesKept s t :=
  fun m hm => hm.of_noticePart (h.noticePart hl m)

theorem foldl {α : Type} {f : State → α → State} (h : ∀ s a, NoticesKept s (f s a)) (l : List α) (s : State) :
    NoticesKept s (l.foldl f s) :=
  List.foldlRecOn (motive := NoticesKept s) l f (.refl s) fun t ht a _ => ht.trans (h t a)

theorem of_modCtx (m : Slot) {f : Context → Context} (h : (s.ctx m).NoticeGood → (f (s.ctx m)).NoticeGood) :
    NoticesKept s (s.modCtx m f) := fun k hk => by
  by_cases hkm : k = m
  · subst hkm
    rw [State.ctx_modCtx_same]
    exact h hk
  · rw [State.ctx_modCtx_of_ne hkm]
    exact hk

/-! ### The Window Store -/

/-- A notice joins a queue of fewer than 8, and the first raises CLOSED (R125, R140). -/
theorem handNotice (s : State) (m : Slot) (nt : Notice) : NoticesKept s (s.handNotice m nt) := by
  intro k hk
  by_cases hkm : k = m
  · subst hkm
    obtain ⟨hlength, hclosed⟩ := hk
    unfold State.handNotice
    dsimp only
    split
    next hroom =>
      have hjoin : ((s.ctx k).reader.notices ++ [nt]).length ≤ 8 := by simp; omega
      split
      · rw [State.raise, State.ctx_modAttention_same, State.ctx_modReader_same]
        refine ⟨hjoin, ?_⟩
        dsimp only
        rw [Attention.getLsbD_raise _ _ (by decide)]
        simp [Cause.index]
      next hne =>
        rw [State.ctx_modReader_same]
        refine ⟨hjoin, hclosed.trans ?_⟩
        simpa using hne
    · rw [State.ctx_modReader_same]
      exact ⟨hlength, hclosed⟩
  · rw [State.ctx_handNotice_of_ne hkm]
    exact hk

theorem modWindow (s : State) (n : Nat) (f : Window → Window) : NoticesKept s (s.modWindow n f) := fun _ => id

theorem closeWindow (s : State) (n : Nat) (reason : CloseReason) : NoticesKept s (s.closeWindow n reason) := by
  unfold State.closeWindow
  split
  · split
    · exact (modWindow s n _).trans (.foldl (fun t m => handNotice t m _) _ _)
    · exact .refl s
  · exact .refl s

theorem completenessCheck (s : State) (n : Nat) : NoticesKept s (s.completenessCheck n) := by
  unfold State.completenessCheck
  split
  · split
    · exact closeWindow s n _
    · exact .refl s
  · exact .refl s

theorem dropWindow (s : State) (n : Nat) : NoticesKept s (s.dropWindow n) := fun m hm => by
  rw [State.dropWindow, State.ctx_modAllCtx]
  exact hm

theorem missWindow (s : State) (m : Slot) (n : Nat) : NoticesKept s (s.missWindow m n) :=
  (of_changes (State.modReader_changes (f := fun r => { r with missed := raise16 r.missed, lastMissed := some n }) s m
    fun _ => rfl) (by simp)).trans (of_changes (State.raise_changes (c := .reclaimed) _ m (by decide)) (by simp))

theorem reclaim (s : State) (n : Nat) : NoticesKept s (s.reclaim n) := by
  unfold State.reclaim
  split
  · exact (foldl (fun t m => missWindow t m n) _ _).trans (dropWindow _ n)
  · exact .refl s

theorem reclaimFor (need fuel : Nat) (s : State) : NoticesKept s (s.reclaimFor need fuel) := by
  induction fuel generalizing s with
  | zero => exact .refl s
  | succ fuel ih =>
    unfold State.reclaimFor
    split
    · exact .refl s
    · split
      · exact .refl s
      · exact (reclaim s _).trans (ih _)

theorem releaseWindow (s : State) (m : Slot) (n : Nat) : NoticesKept s (s.releaseWindow m n).1 := by
  unfold State.releaseWindow
  dsimp only
  split
  · split
    · exact (modWindow s n _).trans (dropWindow _ n)
    · exact modWindow s n _
  · exact modWindow s n _

theorem releaseAll (s : State) (m : Slot) : NoticesKept s (s.releaseAll m).1 :=
  List.foldlRecOn (motive := fun p : State × Nat => NoticesKept s p.1) _ _ (.refl s) fun p hp n _ =>
    hp.trans (releaseWindow p.1 m n)

theorem openWindow (s : State) (w : Nat) : NoticesKept s (s.openWindow w) := by
  have hfree (s : State) : NoticesKept s (s.openInFreeSlot w) := by
    unfold State.openInFreeSlot
    split
    · exact fun _ => id
    · exact .refl s
  unfold State.openWindow
  split
  · exact (reclaim s _).trans (hfree _)
  · exact hfree s

theorem removeExpected (s : State) (st : StationNo) : NoticesKept s (s.removeExpected st) := by
  refine foldl (fun s n => ?_) _ s
  unfold State.removeExpectedIn
  split
  · split
    · exact (modWindow s n _).trans (completenessCheck _ n)
    · exact .refl s
  · exact .refl s

theorem endCheck (s : State) (now n : Nat) : NoticesKept s (s.endCheck now n) := by
  unfold State.endCheck
  dsimp only
  split
  · split
    · exact ((modWindow s n _).trans (completenessCheck _ n)).trans (closeWindow _ n _)
    · exact (modWindow s n _).trans (completenessCheck _ n)
  · exact .refl s

theorem windowBoundary (s : State) (b : Nat) : NoticesKept s (s.windowBoundary b) := by
  unfold State.windowBoundary
  dsimp only
  split
  · have h := foldl (fun t n => endCheck t s.timebase.us n) (s.openNumbers.filter fun n => decide (n < b)) s
    split
    · exact h.trans (openWindow _ _)
    · exact h
  · exact .refl s

theorem leaveService (s : State) (n : StationNo) (f : Station → Station) : NoticesKept s (s.leaveService n f) := by
  unfold State.leaveService
  split
  · exact (of_changes (State.modStation_changes s n f) (by simp)).trans (removeExpected _ n)
  · exact of_changes (State.modStation_changes s n f) (by simp)

theorem placeFragments (s : State) (list : List (Nat × Fragment)) : NoticesKept s (s.placeFragments list).1 := by
  have hone (p : State × Nat × Nat) (wf : Nat × Fragment) : NoticesKept p.1 (State.placeOne p wf).1 := by
    unfold State.placeOne
    dsimp only
    split
    · exact (modWindow _ _ _).trans (completenessCheck _ _)
    · exact of_changes (State.modStation_changes _ _ _) (by simp)
  have hplaced (p : State × Nat × Nat) : NoticesKept p.1 (list.foldl State.placeOne p).1 :=
    List.foldlRecOn (motive := fun q : State × Nat × Nat => NoticesKept p.1 q.1) list _ (.refl p.1)
      fun q hq wf _ => hq.trans (hone q wf)
  unfold State.placeFragments
  dsimp only
  split
  · exact reclaimFor _ 64 s
  · exact (reclaimFor _ 64 s).trans (hplaced (_, 0, 0))

/-! ### The events and the takings -/

theorem takeBoundary (s : State) : NoticesKept s s.takeBoundary := by
  unfold State.takeBoundary
  split
  · have hclear : NoticesKept s (s.setTimebase { s.timebase with boundaryDue := none }).stationBoundary := fun _ => id
    exact hclear.trans (windowBoundary _ _)
  · exact .refl s

theorem takeExpiry (s : State) : NoticesKept s s.takeExpiry := by
  unfold State.takeExpiry
  split
  · have hclear : NoticesKept s (s.setTimebase { s.timebase with expiryDue := none }) := fun _ => id
    exact hclear.trans (endCheck _ _ _)
  · exact .refl s

theorem takeScan (s : State) : NoticesKept s s.takeScan := by
  unfold State.takeScan
  split
  · have hclear : NoticesKept s (s.setTimebase { s.timebase with scanDue := false }) := fun _ => id
    refine hclear.trans (foldl (fun s n => ?_) _ _)
    unfold State.scanStation
    split
    · exact leaveService s n _
    · exact .refl s
  · exact .refl s

theorem takeCycle (s : State) : NoticesKept s s.takeCycle := by
  have hown : NoticesKept s s.takeSlewEnd.takeArmedExpiry.takeMissingPulse :=
    ((of_changes (State.takeSlewEnd_changes s) (by simp)).trans
      (of_changes (State.takeArmedExpiry_changes _) (by simp [Part.requests]))).trans
      (of_changes (State.takeMissingPulse_changes _) (by simp))
  have hdue := ((hown.trans (takeBoundary _)).trans (takeExpiry _)).trans (takeScan _)
  exact hdue.trans (of_changes (State.setTimebase_changes _ _) (by simp))

theorem takeBlock (s : State) (m : Slot) (rec : IntakeRecord) : NoticesKept s (s.takeBlock m rec) := by
  unfold State.takeBlock
  split
  · exact of_changes (State.refuseBlock_changes s m rec _) (by simp)
  next n c _ =>
    have hplaced := placeFragments s c.fragments
    split
    next hs1 =>
      rw [hs1] at hplaced
      exact hplaced.trans (of_changes (State.refuseBlock_changes _ m rec _) (by simp))
    next hs1 =>
      rw [hs1] at hplaced
      exact hplaced.trans (of_changes (State.blockOutcome_changes _ m n rec _ _ _) (by simp))

theorem takeRecord (s : State) : NoticesKept s s.takeRecord := by
  unfold State.takeRecord
  split
  · exact .refl s
  next m _ =>
    split
    · exact .refl s
    next rec _ _ =>
      have hpop : NoticesKept s (s.popQueue m) := of_changes (State.popQueue_changes s m) (by simp)
      show NoticesKept s (s.takeHead m rec)
      unfold State.takeHead
      split
      · exact of_changes (State.stopMalformed_changes s m rec) (by simp)
      · exact hpop.trans (takeBlock _ m rec)
      · refine hpop.trans ?_
        unfold State.takeProbe
        split
        · exact of_changes (State.refuseProbe_changes _ m rec _) (by simp)
        · exact (of_changes (State.modStation_changes _ _ _) (by simp)).trans
            (of_changes (State.modIntake_changes _ m _) (by simp))

/-- A pop that leaves no notice clears CLOSED (R126, R140). -/
theorem popNotice (s : State) (m : Slot) : NoticesKept s (s.popNotice m).1 := by
  intro k hk
  by_cases hkm : k = m
  · subst hkm
    obtain ⟨hlength, hclosed⟩ := hk
    unfold State.popNotice
    dsimp only
    split
    next nt rest hnotices =>
      rw [hnotices] at hlength hclosed
      have hrest : rest.length ≤ 8 := Nat.le_of_succ_le hlength
      dsimp only
      split
      next hempty =>
        rw [State.ctx_modAttention_same, State.ctx_modReader_same]
        refine ⟨hrest, ?_⟩
        dsimp only
        rw [Attention.getLsbD_clear _ _ (by decide)]
        simpa [Cause.index] using hempty
      next hne =>
        rw [State.ctx_modReader_same]
        refine ⟨hrest, hclosed.trans ?_⟩
        simpa using hne
    · rw [State.ctx_modReader_same]
      exact ⟨hlength, hclosed⟩
  · have hother : ((s.popNotice m).1.ctx k) = s.ctx k := by
      unfold State.popNotice
      dsimp only
      split
      · split
        · rw [State.modAttention, State.ctx_modCtx_of_ne hkm, State.modReader, State.ctx_modCtx_of_ne hkm]
        · rw [State.modReader, State.ctx_modCtx_of_ne hkm]
      · rw [State.modReader, State.ctx_modCtx_of_ne hkm]
    rw [hother]
    exact hk

/-! ### The requests -/

section Requests

theorem complete (s : State) (m : Slot) (st : Status) (v : Values) : NoticesKept s (s.complete m st v) :=
  of_changes (State.complete_changes_flight s m st v) (by simp)

theorem requestDisableStation (s : State) (m : Slot) : NoticesKept s (s.requestDisableStation m) := by
  unfold State.requestDisableStation State.ownerRequest
  split
  · exact complete s m _ _
  · split
    · dsimp only
      split
      · exact complete s m _ _
      · exact (leaveService s _ _).trans (complete _ m _ _)
    · exact complete s m _ _

theorem requestWithdraw (s : State) (m : Slot) : NoticesKept s (s.requestWithdraw m) := by
  unfold State.requestWithdraw
  dsimp only
  split
  · have hleft := (of_changes (State.enrolled_changes s m false) (by simp)).trans (releaseAll _ m)
    exact hleft.trans (complete _ m _ _)
  · exact complete s m _ _

theorem requestRelease (s : State) (m : Slot) : NoticesKept s (s.requestRelease m) := by
  unfold State.requestRelease
  dsimp only
  split
  · exact complete s m _ _
  · split
    · exact complete s m _ _
    · split
      · exact (releaseWindow s m _).trans (complete _ m _ _)
      · exact complete s m _ _

theorem requestStart (s : State) (m : Slot) : NoticesKept s (s.requestStart m) := by
  unfold State.requestStart
  split
  · exact complete s m _ _
  · split
    · exact complete s m _ _
    · split
      · exact complete s m _ _
      · have hrun : NoticesKept s { s with part := .run } := fun _ => id
        exact ((hrun.trans (openWindow _ _)).trans (openWindow _ _)).trans (complete _ m _ _)

theorem requestHalt (s : State) (m : Slot) : NoticesKept s (s.requestHalt m) := by
  unfold State.requestHalt
  split
  · have hflush : NoticesKept s s.flushAll := foldl (fun t n => closeWindow t n _) _ _
    have hsetup : NoticesKept s.flushAll { s.flushAll with part := .setup } := fun _ => id
    exact (hflush.trans hsetup).trans (complete _ m _ _)
  · exact complete s m _ _

theorem resetContext (s : State) (m : Slot) : NoticesKept s (s.resetContext m) := by
  have hshares : NoticesKept s (s.modCtx m Context.resetShares) :=
    of_modCtx m fun _ => by simp [Context.NoticeGood, Context.resetShares, Context.reset, Reader.reset, Attention.reset]
  have hrange (t : State) : NoticesKept t (t.disableRange m) :=
    (foldl (fun t n => leaveService t n Station.contextReset) _ t).trans
      (of_changes (State.setRangeEntry_changes _ m none) (by simp))
  have hcancel := ((hshares.trans (releaseAll _ m)).trans (hrange _)).trans
    (of_changes (State.cancelSetTime_changes _ m) (by simp))
  exact hcancel.trans (of_changes (State.postResult_changes _ m _ _ _) (by simp))

end Requests

end NoticesKept

/-- Every act keeps notices and CLOSED in agreement. -/
theorem act_noticesKept {c : Instr} {s : State} (hc : isFullReset c = false) (hidle : s.IdleFor c) :
    NoticesKept s (act c s) := by
  have quiet (hl : Part.notices ∉ touches c) : NoticesKept s (act c s) := .of_changes (act_changes hc hidle) hl
  cases c with
  | oscillatorCycle => exact .takeCycle s
  | boundaryEvent => exact .takeBoundary s
  | expiryEvent => exact .takeExpiry s
  | scanEvent => exact .takeScan s
  | recordTaking => exact .takeRecord s
  | noticePop m => exact .popNotice s m
  | disableStation m => exact .requestDisableStation s m
  | withdraw m => exact .requestWithdraw s m
  | release m => exact .requestRelease s m
  | start m => exact .requestStart s m
  | halt m => exact .requestHalt s m
  | contextReset m _ => exact .resetContext s m
  | fullReset _ => cases hc
  | _ => exact quiet (by simp [touches, Part.requests])

/-- The parts that notices and CLOSED are made of. -/
def noticeParts : Part → Bool
  | .notices => true
  | _ => false

theorem noticesGood_restsOn : RestsOn State.NoticesGood noticeParts := fun _ _ hsame hs m =>
  Context.NoticeGood.of_noticePart (hs m) (hsame .notices rfl m)

/-- The contexts of a full reset (R174). -/
theorem fullReset_ctx (s : State) (line : ResetLine) (m : Slot) : (act (.fullReset line) s).ctx m = Context.reset := by
  cases line <;> simp [act, State.setResetLine, State.fullResetValues, State.ctx]

/-- Settles O41: every act keeps each of the two. -/
theorem queuesAndFlagsStayGood : Obligations.QueuesAndFlagsStayGood := by
  refine fun s t hnext => ⟨fun hs => ?_, fun hs => ?_⟩
  · refine step_keeps State.intakesGood_restsOn (fun sent => ?_) (fun s line m => ?_)
      (fun _ _ hc hidle h => act_intakesGood hc hidle h) hs hnext
    · cases sent <;> simp [edges, State.intakeParts]
    · rw [fullReset_ctx]
      exact ⟨by decide, by decide, by decide⟩
  · refine step_keeps noticesGood_restsOn (fun sent => ?_) (fun s line m => ?_)
      (fun _ _ hc hidle h m => act_noticesKept hc hidle m (h m)) hs hnext
    · cases sent <;> simp [edges, noticeParts]
    · rw [fullReset_ctx]
      decide

end Sys2Proof.Machine

/-! PROOFS. The algebra of `State.closing`: changing and closing windows one after the other, in ascending window number, is
one change of every window (R114, R125). -/

namespace Sys2Proof.Machine

/-! ### Notices handed one after the other -/

namespace Context

variable (c : Context)

@[simp] theorem handed_nil : c.handed [] = c := by
  simp [handed]

@[simp] theorem handed_enrolled (notices : List Notice) : (c.handed notices).reader.enrolled = c.reader.enrolled := by
  unfold handed
  split <;> simp

theorem handed_of_not_enrolled (h : c.reader.enrolled = false) (notices : List Notice) : c.handed notices = c :=
  if_neg (by simp [h])

/-- Notices handed in two parts are the notices handed at once (R125, R140). -/
theorem handed_handed (a b : List Notice) : (c.handed a).handed b = c.handed (a ++ b) := by
  cases he : c.reader.enrolled with
  | false => rw [handed_of_not_enrolled c he, handed_of_not_enrolled c he, handed_of_not_enrolled c he]
  | true =>
    have hroom : 8 - (c.reader.notices ++ a.take (8 - c.reader.notices.length)).length
        = 8 - c.reader.notices.length - a.length := by simp; omega
    have hqueue : c.reader.notices ++ a.take (8 - c.reader.notices.length)
        ++ b.take (8 - c.reader.notices.length - a.length)
          = c.reader.notices ++ (a ++ b).take (8 - c.reader.notices.length) := by
      rw [List.take_append, List.append_assoc]
    have hover : (c.reader.overflow || decide (8 - c.reader.notices.length < a.length)
        || decide (8 - c.reader.notices.length - a.length < b.length))
          = (c.reader.overflow || decide (8 - c.reader.notices.length < (a ++ b).length)) := by
      rw [Bool.or_assoc, ← Bool.decide_or]
      congr 1
      simp only [List.length_append, decide_eq_decide]
      omega
    have hempty : (c.reader.notices ++ a.take (8 - c.reader.notices.length) = []) ↔ c.reader.notices = [] ∧ a = [] := by
      rw [List.append_eq_nil_iff]
      refine and_congr_right fun hn => ?_
      simp [hn]
    simp only [handed, he, if_true, hroom, hqueue, hover, hempty]
    congr 2
    by_cases hn : c.reader.notices = []
    · by_cases ha : a = []
      · simp [hn, ha]
      · simp [hn, ha]
    · simp [hn]

end Context

/-! ### The windows that a change closes -/

/-- The windows of a list that a change closes, changed, in ascending window number (R114). -/
def shutBy (f : Window → Window) (l : List Window) : List Window :=
  ((l.filter fun w => w.isOpen && !(f w).isOpen).map f).insertionSort fun a b => a.number ≤ b.number

theorem sorted_shutBy (f : Window → Window) (l : List Window) :
    (shutBy f l).Pairwise fun a b => a.number ≤ b.number := by
  have htotal : Std.Total fun a b : Window => a.number ≤ b.number := ⟨fun a b => Nat.le_total a.number b.number⟩
  have htrans : IsTrans Window fun a b => a.number ≤ b.number := ⟨fun _ _ _ => Nat.le_trans⟩
  exact List.pairwise_insertionSort _ _

theorem mem_shutBy {f : Window → Window} {l : List Window} {v : Window} :
    v ∈ shutBy f l ↔ ∃ w ∈ l, (w.isOpen = true ∧ (f w).isOpen = false) ∧ f w = v := by
  simp [shutBy, and_assoc]

/-- A change that closes no window. -/
theorem shutBy_eq_nil {f : Window → Window} {l : List Window} (h : ∀ w ∈ l, w.isOpen = true → (f w).isOpen = true) :
    shutBy f l = [] := by
  refine List.eq_nil_iff_forall_not_mem.mpr fun v hv => ?_
  obtain ⟨w, hw, ⟨ho, hc⟩, -⟩ := mem_shutBy.mp hv
  rw [h w hw ho] at hc
  cases hc

theorem shutBy_congr {f g : Window → Window} {l : List Window} (h : ∀ w ∈ l, f w = g w) : shutBy f l = shutBy g l := by
  have hfilter : (l.filter fun w => w.isOpen && !(f w).isOpen) = l.filter fun w => w.isOpen && !(g w).isOpen :=
    List.filter_congr fun w hw => by rw [h w hw]
  have hmap : ((l.filter fun w => w.isOpen && !(g w).isOpen).map f) = (l.filter fun w => w.isOpen && !(g w).isOpen).map g :=
    List.map_congr_left fun w hw => h w (List.mem_filter.mp hw).1
  rw [shutBy, shutBy, hfilter, hmap]

/-- A change of windows under their numbers that leaves CLOSED ones alone, as every close of the Window Store is (R114). -/
structure Closes (f : Window → Window) : Prop where
  number : ∀ w, (f w).number = w.number
  closed : ∀ w, w.isOpen = false → f w = w

namespace Closes

variable {f g : Window → Window}

/-- What is OPEN after such a change was so before it. -/
theorem isOpen (h : Closes f) {w : Window} (ho : (f w).isOpen = true) : w.isOpen = true := by
  by_contra hc
  rw [Bool.not_eq_true] at hc
  rw [h.closed w hc] at ho
  rw [ho] at hc
  cases hc

theorem comp (hg : Closes g) (hf : Closes f) : Closes (g ∘ f) where
  number w := by simp [hg.number, hf.number]
  closed w hw := by simp [hf.closed w hw, hg.closed w hw]

/-- Windows closed by a first change and by a second one are those that both together close, in ascending number if the
first closes lower ones (R114). -/
theorem shutBy_comp (hf : Closes f) (hg : Closes g) {l : List Window} (hd : (l.map Window.number).Nodup)
    (horder : ∀ v ∈ shutBy f l, ∀ w ∈ shutBy g (l.map f), v.number ≤ w.number) :
    shutBy f l ++ shutBy g (l.map f) = shutBy (g ∘ f) l := by
  have hsplit : List.Perm (((l.filter fun w => w.isOpen && !(f w).isOpen).map f)
      ++ (((l.map f).filter fun v => v.isOpen && !(g v).isOpen).map g))
        ((l.filter fun w => w.isOpen && !((g ∘ f) w).isOpen).map (g ∘ f)) := by
    have hfirst : ((l.filter fun w => w.isOpen && !(f w).isOpen).map f)
        = (((l.filter fun w => w.isOpen && !((g ∘ f) w).isOpen).filter fun w => !(f w).isOpen).map (g ∘ f)) := by
      rw [List.filter_filter]
      have hfilter : (l.filter fun w => w.isOpen && !(f w).isOpen)
          = l.filter fun w => !(f w).isOpen && (w.isOpen && !((g ∘ f) w).isOpen) := by
        refine List.filter_congr fun w _ => ?_
        cases hw : (f w).isOpen
        · simp [hg.closed _ hw, hw]
        · simp
      rw [← hfilter]
      refine List.map_congr_left fun w hw => ?_
      have hclosed : (f w).isOpen = false := by simpa using And.right (by simpa using (List.mem_filter.mp hw).2)
      simp [hg.closed _ hclosed]
    have hsecond : (((l.map f).filter fun v => v.isOpen && !(g v).isOpen).map g)
        = (((l.filter fun w => w.isOpen && !((g ∘ f) w).isOpen).filter fun w => !!(f w).isOpen).map (g ∘ f)) := by
      rw [List.filter_filter, List.filter_map, List.map_map]
      congr 1
      refine List.filter_congr fun w _ => ?_
      cases hw : (f w).isOpen
      · simp [hw]
      · simp [hw, hf.isOpen hw]
    rw [hfirst, hsecond, ← List.map_append]
    exact (List.filter_append_perm _ _).map _
  have hperm : List.Perm (shutBy f l ++ shutBy g (l.map f)) (shutBy (g ∘ f) l) :=
    (((List.perm_insertionSort _ _).append (List.perm_insertionSort _ _)).trans hsplit).trans
      (List.perm_insertionSort _ _).symm
  refine hperm.eq_of_pairwise (fun a b ha hb hab hba => ?_)
    (List.pairwise_append.mpr ⟨sorted_shutBy f l, sorted_shutBy g _, horder⟩) (sorted_shutBy _ _)
  obtain ⟨v, hv, -, rfl⟩ := mem_shutBy.mp (hperm.mem_iff.mp ha)
  obtain ⟨w, hw, -, rfl⟩ := mem_shutBy.mp hb
  have hnumber : v.number = w.number := by
    rw [← (hg.comp hf).number v, ← (hg.comp hf).number w]
    exact Nat.le_antisymm hab hba
  rw [List.inj_on_of_nodup_map hd hv hw hnumber]

end Closes

end Sys2Proof.Machine

/-! PROOFS. `State.closing` as the one description of what changes windows and closes them: closes, completeness checks, end
checks and removals from expected sets, one window after the other (R105, R106, R111, R114, R115). -/

namespace Sys2Proof.Machine

theorem vmap_vmap {α β γ : Type} {n : Nat} (g : β → γ) (f : α → β) (v : Vector α n) :
    vmap g (vmap f v) = vmap (g ∘ f) v :=
  Vector.ext fun i hi => by simp

theorem vmap_congr {α β : Type} {n : Nat} {f g : α → β} {v : Vector α n} (h : ∀ x ∈ v.toList, f x = g x) :
    vmap f v = vmap g v :=
  Vector.ext fun i hi => by
    rw [vmap_getElem, vmap_getElem]
    exact h _ (by simp)

namespace State

variable {s t : State} {f g : Window → Window}

/-- The window numbers held are distinct, as they are in a good ring (R101). -/
def Distinct (s : State) : Prop := (s.held.map Window.number).Nodup

theorem RingGood.distinct (h : s.RingGood) : s.Distinct := h.1

theorem mem_held {w : Window} : w ∈ s.held ↔ some w ∈ s.windows.toList := by
  rw [held_eq, List.mem_filterMap]
  simp

/-- A window held is the only one of its number. -/
theorem Distinct.eq (h : s.Distinct) {v w : Window} (hv : v ∈ s.held) (hw : w ∈ s.held) (hn : v.number = w.number) :
    v = w := List.inj_on_of_nodup_map h hv hw hn

theorem closing_eq (s : State) (f : Window → Window) :
    s.closing f = { s with
      windows := vmap (Option.map f) s.windows
      contexts := vmap (fun c => c.handed ((shutBy f s.held).map Window.asNotice)) s.contexts } := rfl

/-- A change of windows matters on the windows held alone. -/
theorem closing_congr (h : ∀ w ∈ s.held, f w = g w) : s.closing f = s.closing g := by
  have hwindows : vmap (Option.map f) s.windows = vmap (Option.map g) s.windows := by
    refine vmap_congr fun o ho => ?_
    cases o with
    | none => rfl
    | some w => exact congrArg some (h w (mem_held.mpr ho))
  rw [closing_eq, closing_eq, hwindows, shutBy_congr h]

/-- A change that closes nothing hands no notice. -/
theorem closing_of_no_close (h : ∀ w ∈ s.held, w.isOpen = true → (f w).isOpen = true) :
    s.closing f = { s with windows := vmap (Option.map f) s.windows } := by
  have hcontexts : vmap (fun c : Context => c.handed []) s.contexts = s.contexts := by
    simp only [Context.handed_nil]
    exact vmap_id _
  rw [closing_eq, shutBy_eq_nil h, List.map_nil, hcontexts]

theorem closing_id (h : ∀ w ∈ s.held, f w = w) : s.closing f = s := by
  rw [closing_congr (g := fun w => w) h, closing_of_no_close fun _ _ ho => ho]
  have hid : (Option.map fun w : Window => w) = fun o => o := funext fun o => by simp
  rw [hid, vmap_id]

/-- A change of one window that does not close it. -/
theorem modWindow_eq_closing {n : Nat} (h : ∀ w ∈ s.held, w.number = n → w.isOpen = true → (f w).isOpen = true) :
    s.modWindow n f = s.closing fun w => if w.number = n then f w else w := by
  rw [closing_of_no_close fun w hw ho => ?_]
  · rfl
  · split
    next hn => exact h w hw hn ho
    · exact ho

@[simp] theorem enrolled_closing (s : State) (f : Window → Window) (m : Slot) :
    ((s.closing f).ctx m).reader.enrolled = (s.ctx m).reader.enrolled := by
  obtain ⟨notices, hctx⟩ := ctx_closing s f
  rw [hctx m, Context.handed_enrolled]

@[simp] theorem readersEnrolled_closing (s : State) (f : Window → Window) :
    (s.closing f).readersEnrolled = s.readersEnrolled := by
  simp only [readersEnrolled, enrolled_closing]

theorem Distinct.closing (h : s.Distinct) (hf : ∀ w, (f w).number = w.number) : (s.closing f).Distinct := by
  have hnumbers : (s.closing f).held.map Window.number = s.held.map Window.number := by
    rw [held_closing, List.map_map]
    exact List.map_congr_left fun w _ => hf w
  rw [Distinct, hnumbers]
  exact h

/-- Two changes one after the other are one, if the first closes lower windows than the second (R114). -/
theorem closing_closing (h : s.Distinct) (hf : Closes f) (hg : Closes g)
    (horder : ∀ v ∈ shutBy f s.held, ∀ w ∈ shutBy g (s.held.map f), v.number ≤ w.number) :
    (s.closing f).closing g = s.closing (g ∘ f) := by
  have hmap : (Option.map g ∘ Option.map f) = Option.map (g ∘ f) := funext fun o => by simp
  have hhanded : ((fun c : Context => c.handed ((shutBy g (s.held.map f)).map Window.asNotice)) ∘
      fun c : Context => c.handed ((shutBy f s.held).map Window.asNotice))
        = fun c : Context => c.handed ((shutBy (g ∘ f) s.held).map Window.asNotice) :=
    funext fun c => by
      rw [Function.comp, Context.handed_handed, ← List.map_append, Closes.shutBy_comp hf hg h horder]
  rw [closing_eq (s.closing f), held_closing, closing_eq s f, closing_eq s (g ∘ f)]
  simp only [vmap_vmap, hmap, hhanded]

/-! ### Windows changed one after the other -/

/-- The window of one number changed. -/
def atNumber (n : Nat) (f : Window → Window) (w : Window) : Window := if w.number = n then f w else w

end State

namespace Closes

variable {f g : Window → Window}

theorem atNumber (h : Closes f) (n : Nat) : Closes (State.atNumber n f) where
  number w := by
    unfold State.atNumber
    split
    · exact h.number w
    · rfl
  closed w hw := by
    unfold State.atNumber
    split
    · exact h.closed w hw
    · rfl

theorem onNumbers (h : Closes f) (ns : List Nat) : Closes fun w => if w.number ∈ ns then f w else w where
  number w := by
    split
    · exact h.number w
    · rfl
  closed w hw := by
    split
    · exact h.closed w hw
    · rfl

end Closes

namespace State

variable {s t : State} {f g : Window → Window}

/-- What closes windows under some numbers closes none of another. -/
theorem number_of_mem_shutBy {p : Nat → Prop} {l : List Window} (hf : ∀ w, (f w).number = w.number)
    (h : ∀ w, ¬p w.number → f w = w) {v : Window} (hv : v ∈ shutBy f l) : p v.number := by
  obtain ⟨w, -, ⟨ho, hc⟩, rfl⟩ := mem_shutBy.mp hv
  rw [hf]
  by_contra hp
  rw [h w hp, ho] at hc
  cases hc

/-- An operation that changes the window of one number, taken for the numbers of an ascending list, changes each of their
windows, all OPEN (R105, R111, R115). `P` is what the operation needs of a state. -/
theorem foldl_closing {op : State → Nat → State} {P : State → Prop} (hf : Closes f)
    (hkeep : ∀ t n, P t → P (t.closing (atNumber n f)))
    (hop : ∀ t n, P t → t.Distinct → (∀ w ∈ t.held, w.number = n → w.isOpen = true) →
      op t n = t.closing (atNumber n f))
    {ns : List Nat} (hns : ns.Pairwise (· < ·)) (hs : P s) (hd : s.Distinct)
    (hopen : ∀ w ∈ s.held, w.number ∈ ns → w.isOpen = true) :
    ns.foldl op s = s.closing fun w => if w.number ∈ ns then f w else w := by
  induction ns generalizing s with
  | nil => exact (closing_id fun w _ => by simp).symm
  | cons n ns ih =>
    obtain ⟨hn, hns⟩ := List.pairwise_cons.mp hns
    have hone := hf.atNumber n
    have hfirst : ∀ w ∈ s.held, w.number = n → w.isOpen = true := fun w hw hn => hopen w hw (by simp [hn])
    have hrest : ∀ w ∈ (s.closing (atNumber n f)).held, w.number ∈ ns → w.isOpen = true := by
      intro w hw hm
      rw [held_closing] at hw
      obtain ⟨v, hv, rfl⟩ := List.mem_map.mp hw
      rw [hone.number] at hm
      have hne : v.number ≠ n := fun he => absurd (hn _ hm) (by rw [he]; exact Nat.lt_irrefl n)
      rw [atNumber, if_neg hne]
      exact hopen v hv (List.mem_cons_of_mem _ hm)
    rw [List.foldl_cons, hop s n hs hd hfirst, ih hns (hkeep s n hs) (hd.closing hone.number) hrest,
      closing_closing hd hone (hf.onNumbers ns) fun v hv w hw => ?_]
    · refine closing_congr fun w _ => ?_
      simp only [Function.comp, atNumber, List.mem_cons]
      by_cases hw : w.number = n
      · have hnot : n ∉ ns := fun hm => absurd (hn n hm) (Nat.lt_irrefl n)
        simp [hw, hf.number, hnot]
      · simp [hw]
    · have hv : v.number = n := number_of_mem_shutBy (p := (· = n)) hone.number (fun x hx => if_neg hx) hv
      have hw : w.number ∈ ns := number_of_mem_shutBy (p := (· ∈ ns)) (hf.onNumbers ns).number (fun x hx => if_neg hx) hw
      rw [hv]
      exact Nat.le_of_lt (hn _ hw)

/-! ### The Window Store's closes -/

/-- An OPEN window shut (R114). -/
def shutIfOpen (reason : CloseReason) (readers : List Slot) (w : Window) : Window :=
  if w.isOpen then w.shut reason readers else w

theorem closes_shutIfOpen (reason : CloseReason) (readers : List Slot) : Closes (shutIfOpen reason readers) where
  number w := by unfold shutIfOpen; split <;> rfl
  closed w hw := by simp [shutIfOpen, hw]

/-- A close of window n, whether it is held OPEN or not (R114). -/
theorem closeWindow_eq (h : s.Distinct) (n : Nat) (reason : CloseReason) :
    s.closeWindow n reason = s.closing (atNumber n (shutIfOpen reason s.readersEnrolled)) := by
  cases ho : s.holdsOpen n with
  | true =>
    obtain ⟨w, hfound, hopen⟩ := holdsOpen_iff.mp ho
    obtain ⟨hw, rfl⟩ := findWindow_some hfound
    rw [closeWindow_eq_closing h hw hopen]
    refine closing_congr fun x hx => ?_
    unfold atNumber
    split
    next hn => rw [h.eq hx hw hn, shutIfOpen, if_pos hopen]
    · rfl
  | false =>
    rw [closeWindow_of_not_open ho]
    refine (closing_id fun x hx => ?_).symm
    unfold atNumber shutIfOpen
    split
    next hn =>
      have hclosed : x.isOpen = false := by
        by_contra hopen
        rw [holdsOpen_iff.mpr ⟨x, hn ▸ findWindow_of_mem h hx, by simpa using hopen⟩] at ho
        cases ho
      simp [hclosed]
    · rfl

theorem isComplete_iff {w : Window} : w.isComplete = true ↔ w.Complete := by
  simp [Window.isComplete, Window.Complete]

/-- An OPEN window with its end mark set shut COMPLETE if it is complete (R106). -/
def checked (readers : List Slot) (w : Window) : Window :=
  if w.isOpen = true ∧ w.endMark = true ∧ w.Complete then w.shut .complete readers else w

theorem closes_checked (readers : List Slot) : Closes (checked readers) where
  number w := by unfold checked; split <;> rfl
  closed w hw := by simp [checked, hw]

theorem completenessCheck_eq (h : s.Distinct) (n : Nat) :
    s.completenessCheck n = s.closing (atNumber n (checked s.readersEnrolled)) := by
  have hid (hno : ∀ w ∈ s.held, w.number = n → ¬(w.isOpen = true ∧ w.endMark = true ∧ w.Complete)) :
      s = s.closing (atNumber n (checked s.readersEnrolled)) := by
    refine (closing_id fun w hw => ?_).symm
    unfold atNumber checked
    split
    next hn => rw [if_neg (hno w hw hn)]
    · rfl
  unfold completenessCheck
  split
  next w hfound =>
    obtain ⟨hw, rfl⟩ := findWindow_some hfound
    have hcond : (w.isOpen && w.endMark && w.isComplete) = true ↔ w.isOpen = true ∧ w.endMark = true ∧ w.Complete := by
      rw [Bool.and_eq_true, Bool.and_eq_true, isComplete_iff, and_assoc]
    split
    next hyes =>
      rw [closeWindow_eq h]
      refine closing_congr fun x hx => ?_
      unfold atNumber
      split
      next hn =>
        rw [h.eq hx hw hn]
        have hall := hcond.mp hyes
        rw [shutIfOpen, checked, if_pos hall.1, if_pos hall]
      · rfl
    next hno =>
      refine hid fun x hx hn hall => hno ?_
      rw [h.eq hx hw hn] at hall
      exact hcond.mpr hall
  next hno => exact hid fun x hx hn => absurd hn (findWindow_none.mp hno x hx)

/-- Two changes of the window of one number. -/
theorem closing_atNumber_closing (h : s.Distinct) (hf : Closes f) (hg : Closes g) (n : Nat) :
    (s.closing (atNumber n f)).closing (atNumber n g) = s.closing (atNumber n (g ∘ f)) := by
  rw [closing_closing h (hf.atNumber n) (hg.atNumber n) fun v hv w hw => ?_]
  · refine closing_congr fun w _ => ?_
    simp only [Function.comp, atNumber]
    by_cases hn : w.number = n <;> simp [hn, hf.number]
  · have hv : v.number = n := number_of_mem_shutBy (p := (· = n)) (hf.atNumber n).number (fun x hx => if_neg hx) hv
    have hw : w.number = n := number_of_mem_shutBy (p := (· = n)) (hg.atNumber n).number (fun x hx => if_neg hx) hw
    rw [hv, hw]

end State

end Sys2Proof.Machine

/-! PROOFS. The Window Store's operations as changes of every window: removals from expected sets, end checks, boundaries,
flushes (R105, R106, R111, R112, R115), and stations that leave service (R28, R36, R42). -/

namespace Sys2Proof.Machine

namespace State

variable {s t : State} {f g : Window → Window} {n : Nat}

@[simp] theorem closing_params (s : State) (f : Window → Window) : (s.closing f).params = s.params := rfl

/-- An OPEN window changed. -/
def onOpen (f : Window → Window) (w : Window) : Window := if w.isOpen then f w else w

theorem closes_onOpen (hf : ∀ w, (f w).number = w.number) : Closes (onOpen f) where
  number w := by
    unfold onOpen
    split
    · exact hf w
    · rfl
  closed w hw := by simp [onOpen, hw]

/-- An OPEN window changed under its number and then checked for completeness (R105, R106, R107). -/
theorem completenessCheck_modWindow (h : s.Distinct) (hnumber : ∀ w, (f w).number = w.number)
    (hf : ∀ w, (f w).isOpen = w.isOpen) (hopen : ∀ w ∈ s.held, w.number = n → w.isOpen = true) :
    (s.modWindow n f).completenessCheck n =
      s.closing (atNumber n (onOpen fun w => checked s.readersEnrolled (f w))) := by
  have hf' := closes_onOpen hnumber
  have hmod : s.modWindow n f = s.closing (atNumber n (onOpen f)) := by
    rw [modWindow_eq_closing fun w _ _ ho => by rw [hf]; exact ho]
    refine closing_congr fun w hw => ?_
    unfold atNumber
    split
    next hn => rw [onOpen, if_pos (hopen w hw hn)]
    · rfl
  rw [hmod, completenessCheck_eq (h.closing (hf'.atNumber n).number), readersEnrolled_closing,
    closing_atNumber_closing h hf' (closes_checked _)]
  refine closing_congr fun w hw => ?_
  unfold atNumber
  split
  next hn => simp [onOpen, hopen w hw hn]
  · rfl

/-! ### Removal from expected sets (R105) -/

theorem closes_without (st : StationNo) (readers : List Slot) : Closes fun w => w.without st readers where
  number w := by
    unfold Window.without
    dsimp only
    split
    · split <;> rfl
    · rfl
  closed w hw := by simp [Window.without, hw]

theorem removeExpectedIn_eq (h : s.Distinct) (st : StationNo) (hopen : ∀ w ∈ s.held, w.number = n → w.isOpen = true) :
    s.removeExpectedIn st n = s.closing (atNumber n fun w => w.without st s.readersEnrolled) := by
  have hid (hno : ∀ w ∈ s.held, w.number = n → st ∉ w.expected) :
      s = s.closing (atNumber n fun w => w.without st s.readersEnrolled) := by
    refine (closing_id fun w hw => ?_).symm
    unfold atNumber
    split
    next hn => simp [Window.without, hno w hw hn]
    · rfl
  unfold removeExpectedIn
  split
  next w hfound =>
    obtain ⟨hw, rfl⟩ := findWindow_some hfound
    split
    next hc =>
      rw [completenessCheck_modWindow h (f := fun w => { w with expected := w.expected.filter (· != st) }) (fun _ => rfl)
        (fun _ => rfl) hopen]
      refine closing_congr fun x hx => ?_
      unfold atNumber
      split
      next hn =>
        have hmem : st ∈ x.expected := by
          rw [h.eq hx hw hn]
          simpa using hc
        have ho := hopen x hx hn
        have hfilter : (x.expected.filter fun k => k != st) = x.expected.filter fun k => decide (k ≠ st) :=
          List.filter_congr fun k _ => by by_cases hk : k = st <;> simp [hk]
        have hkept : ({ x with expected := x.expected.filter (· ≠ st) } : Window).isOpen = true := ho
        simp only [onOpen, ho, if_true, Window.without, hmem, and_self, hfilter, checked, hkept, true_and]
      · rfl
    next hc =>
      refine hid fun x hx hn => ?_
      rw [h.eq hx hw hn]
      simpa using hc
  next hno => exact hid fun x hx hn => absurd hn (findWindow_none.mp hno x hx)

/-! ### Numbers of windows, ascending -/

theorem pairwise_numbersWhere (h : s.Distinct) (p : Window → Bool) : (s.numbersWhere p).Pairwise (· < ·) := by
  have hnodup : (s.numbersWhere p).Nodup :=
    (List.perm_insertionSort _ _).nodup_iff.mpr (h.sublist ((List.filter_sublist).map _))
  exact (List.pairwise_insertionSort (· ≤ ·) _).imp₂ (fun a b hle hne => Nat.lt_of_le_of_ne hle hne) hnodup

theorem isOpen_of_mem_openNumbers (h : s.Distinct) {w : Window} (hw : w ∈ s.held) (hn : w.number ∈ s.openNumbers) :
    w.isOpen = true := by
  obtain ⟨v, hv, ho, he⟩ := mem_openNumbers.mp hn
  rw [h.eq hw hv he.symm]
  exact ho

/-- What the operations on windows read of a state, and leave: the parameters and the readers. -/
def SameSetting (s t : State) : Prop := t.params = s.params ∧ t.readersEnrolled = s.readersEnrolled

theorem SameSetting.closing (h : SameSetting s t) (f : Window → Window) : SameSetting s (t.closing f) :=
  ⟨h.1, (readersEnrolled_closing t f).trans h.2⟩

/-- An operation on one OPEN window, taken for those OPEN windows whose numbers meet a condition, in ascending number. -/
theorem foldl_openNumbers {op : State → Nat → State} (h : s.Distinct) (hf : Closes f)
    (hop : ∀ t n, SameSetting s t → t.Distinct → (∀ w ∈ t.held, w.number = n → w.isOpen = true) →
      op t n = t.closing (atNumber n f)) (p : Nat → Bool) :
    (s.openNumbers.filter p).foldl op s = s.closing fun w => if p w.number then f w else w := by
  have hns : (s.openNumbers.filter p).Pairwise (· < ·) := (pairwise_numbersWhere h _).filter _
  rw [foldl_closing (P := SameSetting s) hf (fun t n ht => ht.closing _) hop hns ⟨rfl, rfl⟩ h fun w hw hm =>
    isOpen_of_mem_openNumbers h hw (List.mem_filter.mp hm).1]
  refine closing_congr fun w hw => ?_
  cases ho : w.isOpen with
  | true =>
    have hm : w.number ∈ s.openNumbers := mem_openNumbers.mpr ⟨w, hw, ho, rfl⟩
    simp [List.mem_filter, hm]
  | false => simp [hf.closed w ho]

theorem removeExpected_eq (h : s.Distinct) (st : StationNo) :
    s.removeExpected st = s.closing fun w => w.without st s.readersEnrolled := by
  have hall := foldl_openNumbers (op := fun t n => t.removeExpectedIn st n) h (closes_without st s.readersEnrolled)
    (fun t n ht hd hopen => by rw [removeExpectedIn_eq hd st hopen, ht.2]) fun _ => true
  simpa [removeExpected] using hall

/-- Every OPEN window closed FLUSH (R115). -/
theorem flushAll_eq (h : s.Distinct) : s.flushAll = s.closing (shutIfOpen .flush s.readersEnrolled) := by
  have hall := foldl_openNumbers (op := fun t n => t.closeWindow n .flush) h (closes_shutIfOpen .flush s.readersEnrolled)
    (fun t n ht hd _ => by rw [closeWindow_eq hd, ht.2]) fun _ => true
  simpa [flushAll] using hall

/-! ### End checks (R111, R112) -/

/-- The end check of an OPEN window at a network µs (R111). -/
def endChecked (p : Params) (now : Nat) (readers : List Slot) (w : Window) : Window :=
  if w.isOpen = true then
    if w.Complete then { w with endMark := true }.shut .complete readers
    else if p.expiryTime w.number ≤ now then { w with endMark := true }.shut .expiry readers
    else { w with endMark := true }
  else w

theorem closes_endChecked (p : Params) (now : Nat) (readers : List Slot) : Closes (endChecked p now readers) where
  number w := by
    unfold endChecked
    split_ifs <;> rfl
  closed w hw := by simp [endChecked, hw]

/-- An OPEN window whose end mark is set and which is then checked for completeness (R106, R111). -/
theorem checked_marked {readers : List Slot} {w : Window} (ho : w.isOpen = true) :
    onOpen (fun x => checked readers { x with endMark := true }) w =
      if w.Complete then { w with endMark := true }.shut .complete readers else { w with endMark := true } := by
  rw [onOpen, if_pos ho, checked]
  exact if_congr ⟨fun h => h.2.2, fun h => ⟨ho, rfl, h⟩⟩ rfl rfl

theorem endCheck_eq (h : s.Distinct) (now n : Nat) :
    s.endCheck now n = s.closing (atNumber n (endChecked s.params now s.readersEnrolled)) := by
  unfold endCheck
  dsimp only
  split
  next hholds =>
    obtain ⟨w, hfound, ho⟩ := holdsOpen_iff.mp hholds
    obtain ⟨hw, rfl⟩ := findWindow_some hfound
    have hopen : ∀ x ∈ s.held, x.number = w.number → x.isOpen = true := fun x hx hn => by rw [h.eq hx hw hn]; exact ho
    rw [completenessCheck_modWindow h (f := fun w => { w with endMark := true }) (fun _ => rfl) (fun _ => rfl) hopen]
    have hmarked : Closes (onOpen fun x => checked s.readersEnrolled { x with endMark := true }) :=
      closes_onOpen fun x => (closes_checked _).number _
    have hd := h.closing (hmarked.atNumber w.number).number
    by_cases hexpired : s.params.expiryTime w.number ≤ now
    · have hclose (u : State) (hu : u.params = s.params) :
          (if (u.holdsOpen w.number && decide (u.params.expiryTime w.number ≤ now)) = true then
            u.closeWindow w.number .expiry else u) = u.closeWindow w.number .expiry := by
        split
        · rfl
        next hno =>
          rw [hu, decide_eq_true hexpired, Bool.and_true] at hno
          exact (closeWindow_of_not_open (Bool.eq_false_of_not_eq_true hno) _).symm
      rw [hclose _ (closing_params s _), closeWindow_eq hd, readersEnrolled_closing,
        closing_atNumber_closing h hmarked (closes_shutIfOpen _ _)]
      refine closing_congr fun x hx => ?_
      unfold atNumber
      split
      next hn =>
        rw [h.eq hx hw hn, Function.comp, checked_marked ho, endChecked, if_pos ho]
        by_cases hcomplete : w.Complete
        · rw [if_pos hcomplete, if_pos hcomplete]
          rfl
        · rw [if_neg hcomplete, if_neg hcomplete, if_pos hexpired]
          exact if_pos ho
      · rfl
    · rw [if_neg (by simp [hexpired])]
      refine closing_congr fun x hx => ?_
      unfold atNumber
      split
      next hn =>
        rw [h.eq hx hw hn, checked_marked ho, endChecked, if_pos ho, if_neg hexpired]
      · rfl
  next hno =>
    refine (closing_id fun x hx => ?_).symm
    unfold atNumber
    split
    next hn =>
      have hclosed : x.isOpen = false := by
        by_contra ho
        exact hno (holdsOpen_iff.mpr ⟨x, hn ▸ findWindow_of_mem h hx, by simpa using ho⟩)
      exact (closes_endChecked _ _ _).closed x hclosed
    · rfl

end State

end Sys2Proof.Machine

/-! PROOFS. Stations out of service (R28, R36, R105), flushes (R167) and expiry events (R111, R113, R114, R125). -/

namespace Sys2Proof.Machine

namespace State

variable {s t : State} {n : StationNo} {m : Slot}

/-! ### Stations that leave service (R28, R36, R42, R105) -/

/-- A station that leaves service is out of service (R105). -/
theorem leaveService_eq (h : s.Distinct) (n : StationNo) (f : Station → Station) :
    s.leaveService n f = s.outOfService n (f (s.station n)) := by
  have hrecord : s.modStation n f = s.withRecordOf n (f (s.station n)) := rfl
  have hdistinct : (s.withRecordOf n (f (s.station n))).Distinct := h
  unfold leaveService outOfService
  by_cases hs : (s.station n).state = .tracking ∨ (s.station n).state = .acquiring
  · rw [if_pos (StationState.inService_iff.mpr hs), if_pos hs, hrecord, removeExpected_eq hdistinct]
    rfl
  · rw [if_neg fun hin => hs (StationState.inService_iff.mp hin), if_neg hs, hrecord]

theorem Distinct.outOfService (h : s.Distinct) (n : StationNo) (r : Station) : (s.outOfService n r).Distinct := by
  unfold State.outOfService
  split
  · exact Distinct.closing (s := s.withRecordOf n r) h (closes_without n s.readersEnrolled).number
  · exact h

theorem scanStation_eq (h : s.Distinct) (n : StationNo) :
    s.scanStation n =
      if (s.station n).isSilentAt s.timebase.us s.params.silenceTimeout = true then
        s.outOfService n { s.station n with state := .silent }
      else s := by
  unfold scanStation
  split
  · exact leaveService_eq h n _
  · rfl

theorem isSilentAt_iff {r : Station} {now timeout : Nat} :
    r.isSilentAt now timeout = true ↔
      (r.state = .tracking ∨ r.state = .acquiring) ∧ r.lastArrival + 1000000 * timeout ≤ now := by
  rw [Station.isSilentAt, Bool.and_eq_true, StationState.inService_iff, decide_eq_true_eq]
  rfl

/-- A scan takes out of service, in ascending number, the stations that have timed out when it begins, as one station that
leaves changes no other (R36). -/
theorem scan_eq (h : s.Distinct) {l : List StationNo} (hl : l.Nodup) (p : StationNo → Bool)
    (hp : ∀ n ∈ l, p n = (s.station n).isSilentAt s.timebase.us s.params.silenceTimeout) :
    l.foldl State.scanStation s =
      (l.filter p).foldl (fun u n => u.outOfService n { u.station n with state := .silent }) s := by
  induction l generalizing s with
  | nil => rfl
  | cons n l ih =>
    obtain ⟨hn, hl⟩ := List.nodup_cons.mp hl
    rw [List.foldl_cons, scanStation_eq h, List.filter_cons, ← hp n List.mem_cons_self]
    cases hpn : p n with
    | true =>
      rw [if_pos rfl, if_pos rfl, List.foldl_cons]
      refine ih (h.outOfService n _) hl fun k hk => ?_
      have hstep := outOfService_step s n { s.station n with state := .silent }
      rw [hp k (List.mem_cons_of_mem _ hk), outOfService_station_of_ne (ne_of_mem_of_not_mem hk hn), hstep.timebase, hstep.params]
      rfl
    | false =>
      rw [if_neg (by decide), if_neg (by decide)]
      exact ih h hl fun k hk => hp k (List.mem_cons_of_mem _ hk)

theorem takeScan_of_due (h : s.timebase.scanDue = true) :
    s.takeScan = (s.setTimebase { s.timebase with scanDue := false }).scanStations := if_pos h

/-! ### DISABLE STATION of the caller's station (R28) -/

theorem exec_disableStation (h : s.Ready m) :
    exec (.disableStation m) s = .next (((s.noteCode m 6).requestDisableStation m).answer .ok none) :=
  congrArg Host.Outcome.next (onRequest_of_ready h 6 _)

/-- Changing and closing windows stays apart from the request slot (R158). -/
theorem closing_noteCode (s : State) (m : Slot) (v : Word) (f : Window → Window) :
    (s.noteCode m v).closing f = (s.closing f).noteCode m v :=
  modAllCtx_noteCode_of_request { s with windows := vmap (Option.map f) s.windows } m v
    (fun c => c.handed ((shutBy f s.held).map Window.asNotice))
    (fun c q => by unfold Context.handed; dsimp only; split <;> rfl)
    fun c => by unfold Context.handed; split <;> rfl

@[simp] theorem readersEnrolled_noteCode (s : State) (m : Slot) (v : Word) :
    (s.noteCode m v).readersEnrolled = s.readersEnrolled := by
  simp only [readersEnrolled, reader_noteCode]

theorem outOfService_noteCode (s : State) (m : Slot) (v : Word) (n : StationNo) (r : Station) :
    (s.noteCode m v).outOfService n r = (s.outOfService n r).noteCode m v := by
  have hrecord : (s.noteCode m v).withRecordOf n r = (s.withRecordOf n r).noteCode m v := rfl
  unfold outOfService
  rw [hrecord, closing_noteCode, readersEnrolled_noteCode, noteCode_station]
  split <;> rfl

theorem requestDisableStation_of_owner (hn : s.argNat m 0 = n.val) (ho : s.owns m n = true) :
    s.requestDisableStation m =
      if (s.station n).state = .disabled then s.completeBare m .ok
      else (s.leaveService n fun r => { r.applyPending with state := .disabled }).completeBare m .ok :=
  ownerRequest_of_owner hn ho _

end State

/-- Settles O22: DISABLE STATION by `leaveService_eq`, the scan by the stations that have timed out when it begins. -/
theorem stationsOutOfServiceAreExpectedNoMore : Obligations.StationsOutOfServiceAreExpectedNoMore := by
  refine ⟨fun s m n hready hring hn ho => ⟨fun hs => ?_, fun hs => ?_⟩, fun s hr hring hdue => ?_⟩
  · have hdone := State.requestDisableStation_of_owner (s := s.noteCode m 6) (m := m) (n := n)
      ((State.argNat_noteCode ..).trans hn) ((State.owns_noteCode ..).trans ho)
    rw [State.noteCode_station, if_pos hs] at hdone
    rw [State.exec_disableStation hready, hdone, State.answer_completeBare_noteCode]
    rfl
  · have hdone := State.requestDisableStation_of_owner (s := s.noteCode m 6) (m := m) (n := n)
      ((State.argNat_noteCode ..).trans hn) ((State.owns_noteCode ..).trans ho)
    have hdistinct : (s.noteCode m 6).Distinct := hring.distinct
    rw [State.noteCode_station, if_neg hs, State.leaveService_eq hdistinct, State.outOfService_noteCode,
      State.noteCode_station] at hdone
    rw [State.exec_disableStation hready, hdone, State.answer_completeBare_noteCode]
    rfl
  · intro silent
    let u : State := s.setTimebase { s.timebase with scanDue := false }
    have hscan := State.scan_eq (s := u) hring.distinct (List.nodup_finRange 128)
      (fun n => decide (((s.station n).state = .tracking ∨ (s.station n).state = .acquiring)
        ∧ (s.station n).lastArrival + 1000000 * s.params.silenceTimeout ≤ s.timebase.us)) fun n _ => by
          rw [Bool.eq_iff_iff, State.isSilentAt_iff, decide_eq_true_eq]
          rfl
    rw [State.exec_scanEvent hr, State.takeScan_of_due hdue]
    exact congrArg Host.Outcome.next hscan

end Sys2Proof.Machine

/-! PROOFS. HALT (R115, R167) and the expiry event (R111, R113, R114, R125). -/

namespace Sys2Proof.Machine

namespace State

variable {s t : State} {m : Slot} {n : Nat}

/-! ### HALT (R167) -/

theorem exec_halt (h : s.Ready m) : exec (.halt m) s = .next (((s.noteCode m 16).requestHalt m).answer .ok none) :=
  congrArg Host.Outcome.next (onRequest_of_ready h 16 _)

theorem length_openNumbers (s : State) : s.openNumbers.length = (s.held.filter Window.isOpen).length := by
  simp [openNumbers, numbersWhere]

theorem requestHalt_of_setup (h : s.part = .setup) : s.requestHalt m = s.completeBare m .state :=
  if_neg (by rw [h]; decide)

theorem requestHalt_of_run (hd : s.Distinct) (h : s.part = .run) :
    s.requestHalt m =
      State.complete { s.closing (shutIfOpen .flush s.readersEnrolled) with part := .setup } m .ok
        ⟨BitVec.ofNat 32 (s.held.filter Window.isOpen).length, 0, 0⟩ := by
  rw [requestHalt, if_pos h, flushAll_eq hd, length_openNumbers]
  rfl

/-- Entering SETUP after a close commutes with noting a code. -/
theorem enterSetup_noteCode (s : State) (m : Slot) (v : Word) (f : Window → Window) :
    ({ (s.noteCode m v).closing f with part := .setup } : State) = State.noteCode { s.closing f with part := .setup } m v := by
  rw [closing_noteCode]
  rfl

end State

/-- Settles O46: the flush is one change of every window. -/
theorem haltFlushesEveryOpenWindow : Obligations.HaltFlushesEveryOpenWindow := by
  intro s m hready hring
  refine ⟨fun hsetup => ?_, fun hrun => ?_⟩
  · have hdone : (s.noteCode m 16).requestHalt m = (s.noteCode m 16).completeBare m .state :=
      State.requestHalt_of_setup hsetup
    rw [State.exec_halt hready, hdone, State.answer_completeBare_noteCode]
    rfl
  · have hdistinct : (s.noteCode m 16).Distinct := hring.distinct
    have hdone := State.requestHalt_of_run (m := m) hdistinct hrun
    rw [State.enterSetup_noteCode, State.readersEnrolled_noteCode] at hdone
    rw [State.exec_halt hready, hdone, State.answer_complete_noteCode]
    rfl

/-! ### The expiry event (R111, R113) -/

namespace State

variable {s t : State} {m : Slot} {n : Nat} {w : Window} {g : Window → Window}

/-- A change that closes one OPEN window hands its notice to the readers (R114). -/
theorem ctx_closing_atNumber (h : s.Distinct) (hw : w ∈ s.held) (ho : w.isOpen = true) (hg : (g w).isOpen = false)
    (k : Slot) : (s.closing (atNumber w.number g)).ctx k = (s.ctx k).handed [(g w).asNotice] := by
  have hshut : shutBy (atNumber w.number g) s.held = [g w] := by
    have hfilter : (s.held.filter fun x => x.isOpen && !(atNumber w.number g x).isOpen) = [w] :=
      filter_closes h hw ho hg
    rw [shutBy, hfilter]
    simp [atNumber]
  have hctx : (s.closing (atNumber w.number g)).ctx k = (s.ctx k).handed ((shutBy (atNumber w.number g) s.held).map _) :=
    vmap_getElem _ s.contexts k.val k.isLt
  rw [hctx, hshut]
  rfl

theorem takeExpiry_of_due (h : s.timebase.expiryDue = some n) :
    s.takeExpiry = (s.setTimebase { s.timebase with expiryDue := none }).endCheck s.timebase.us n := by
  rw [takeExpiry, h]

end State

namespace Context

variable {c : Context} {nt : Notice}

/-- One notice handed to a reader that has room for it (R125, R140). -/
theorem handed_singleton_of_room (he : c.reader.enrolled = true) (h : c.reader.notices.length < 8) :
    c.handed [nt] = { c with
      reader := { c.reader with notices := c.reader.notices ++ [nt] }
      attention := { c.attention with
        pending := if c.reader.notices = [] then c.attention.pending ||| 0x08#6 else c.attention.pending } } := by
  obtain ⟨room, hroom⟩ : ∃ room, 8 - c.reader.notices.length = room + 1 := ⟨7 - c.reader.notices.length, by omega⟩
  simp [handed, he, hroom]

/-- One notice handed to a reader whose queue is full (R125). -/
theorem handed_singleton_of_full (he : c.reader.enrolled = true) (h : 8 ≤ c.reader.notices.length) :
    c.handed [nt] = { c with reader := { c.reader with overflow := true } } := by
  have hroom : 8 - c.reader.notices.length = 0 := by omega
  have hne : c.reader.notices ≠ [] := fun e => by simp [e] at h
  simp [handed, he, hroom, hne]

end Context

/-- Settles O43: the end check at the expiry time closes the window, and its notice goes to the enrolled slots. -/
theorem expiryClosesAnOpenWindow : Obligations.ExpiryClosesAnOpenWindow := by
  intro s n hr hring hdue u
  have hdistinct : u.Distinct := hring.distinct
  have hexec : exec .expiryEvent s = .next (u.endCheck s.timebase.us n) := by
    rw [State.exec_expiryEvent hr, State.takeExpiry_of_due hdue]
    rfl
  refine ⟨fun hno => ?_, fun w hfound ho hexpired => ?_⟩
  · have hnot : ¬u.holdsOpen n = true := fun h => by
      have hsame : u.holdsOpen n = s.holdsOpen n := rfl
      rw [hsame, hno] at h
      cases h
    rw [hexec, State.endCheck, if_neg hnot]
  · intro reason notice
    obtain ⟨hw, rfl⟩ := State.findWindow_some (s := u) hfound
    let g := State.endChecked s.params s.timebase.us s.readersEnrolled
    have hg (x : Window) (hx : x ∈ s.held) (hn : x.number = w.number) :
        g x = { x with endMark := true, closed := some reason, pending := s.readersEnrolled } := by
      rw [hdistinct.eq hx hw hn]
      have hexpired' : s.params.expiryTime w.number ≤ s.timebase.us := hexpired
      show State.endChecked _ _ _ w = _
      rw [State.endChecked, if_pos ho, if_pos hexpired']
      by_cases hcomplete : w.Complete
      · have hreason : reason = .complete := if_pos hcomplete
        rw [if_pos hcomplete, hreason]
        rfl
      · have hreason : reason = .expiry := if_neg hcomplete
        rw [if_neg hcomplete, hreason]
        rfl
    have hclosed : (g w).isOpen = false := by rw [hg w hw rfl]; rfl
    have hnotice : (g w).asNotice = notice := by rw [hg w hw rfl]; rfl
    refine ⟨u.closing (State.atNumber w.number g), ?_, State.closing_step _ _, ?_, fun m => ?_⟩
    · rw [hexec, State.endCheck_eq hdistinct]
      rfl
    · rw [State.held_closing]
      refine List.map_congr_left fun x hx => ?_
      unfold State.atNumber
      split
      next hn => exact hg x hx hn
      · rfl
    · have hctx : (u.closing (State.atNumber w.number g)).ctx m = (s.ctx m).handed [notice] := by
        rw [State.ctx_closing_atNumber hdistinct hw ho hclosed, hnotice]
        rfl
      rw [hctx]
      refine ⟨fun he => Context.handed_of_not_enrolled _ he _, fun he hroom => ?_, fun he hfull => ?_⟩
      · rw [Context.handed_singleton_of_room he hroom]
        exact ⟨rfl, rfl⟩
      · rw [Context.handed_singleton_of_full he hfull]
        exact ⟨rfl, rfl⟩

end Sys2Proof.Machine

/-! PROOFS. Fragments entered in windows (R106 to R109). -/

namespace Sys2Proof.Machine

/-! ### Sets of stations in ascending order -/

theorem mem_insertStation {n k : StationNo} {l : List StationNo} : k ∈ insertStation n l ↔ k = n ∨ k ∈ l := by
  induction l with
  | nil => simp [insertStation]
  | cons h t ih =>
    unfold insertStation
    split
    · simp
    · split
      next hn => simp [hn]
      · simp only [List.mem_cons, ih]
        tauto

theorem pairwise_insertStation {n : StationNo} {l : List StationNo} (h : l.Pairwise (· < ·)) :
    (insertStation n l).Pairwise (· < ·) := by
  induction l with
  | nil => simp [insertStation]
  | cons a t ih =>
    obtain ⟨ha, ht⟩ := List.pairwise_cons.mp h
    unfold insertStation
    split
    next hlt => exact List.pairwise_cons.mpr ⟨fun b hb => (List.mem_cons.mp hb).elim (fun e => e ▸ hlt)
        fun hb => hlt.trans (ha b hb), h⟩
    next hnlt =>
      split
      · exact h
      next hne =>
        refine List.pairwise_cons.mpr ⟨fun b hb => ?_, ih ht⟩
        rcases mem_insertStation.mp hb with rfl | hb
        · exact lt_of_le_of_ne (not_lt.mp hnlt) (Ne.symm hne)
        · exact ha b hb

/-- An ascending list of stations is determined by its members. -/
theorem eq_of_mem_iff_of_ascending {k l : List StationNo} (hk : k.Pairwise (· < ·)) (hl : l.Pairwise (· < ·))
    (h : ∀ n, n ∈ k ↔ n ∈ l) : k = l := List.Pairwise.eq_of_mem_iff hk hl h

/-- A set of stations with one member decided anew (R106). -/
theorem decide_member {l : List StationNo} (h : l.Pairwise (· < ·)) (n : StationNo) (p : Prop) [Decidable p] :
    (if p then insertStation n l else l.filter (· != n)) =
      (List.finRange 128).filter fun k => if k = n then decide p else decide (k ∈ l) := by
  have hright : ((List.finRange 128).filter fun k => if k = n then decide p else decide (k ∈ l)).Pairwise (· < ·) :=
    (List.pairwise_lt_finRange 128).filter _
  have hleft : (if p then insertStation n l else l.filter (· != n)).Pairwise (· < ·) := by
    split
    · exact pairwise_insertStation h
    · exact h.filter _
  refine eq_of_mem_iff_of_ascending hleft hright fun k => ?_
  by_cases hk : k = n
  · subst hk
    by_cases hp : p <;> simp [hp, mem_insertStation]
  · by_cases hp : p <;> simp [hp, hk, mem_insertStation]

/-! ### One fragment entered (R107) -/

namespace Window

variable {w : Window} {f : Fragment} {tolerance need : Nat}

theorem overlaps_eq (f g : Fragment) :
    f.overlaps g = decide (g.station = f.station ∧ g.firstTime ≤ f.lastTime ∧ f.firstTime ≤ g.lastTime) := by
  simp only [Fragment.overlaps, Bool.decide_and, Bool.and_assoc]
  rw [decide_eq_decide.mpr (eq_comm (a := f.station)), Bool.and_comm (decide (f.firstTime ≤ g.lastTime))]

/-- The fragment list of a window after f has been entered (R108, R109). -/
theorem enter_fragments (w : Window) (f : Fragment) (tolerance need : Nat) :
    (w.enter f tolerance need).fragments =
      (w.fragments.map fun g => { g with overlap := g.overlap || f.overlaps g }).orderedInsert
        (fun a b => a.before b = true)
        { f with loose := decide (tolerance < f.uncertainty), overlap := w.fragments.any f.overlaps } := by
  have hmap : (w.fragments.map fun g => if f.overlaps g then { g with overlap := true } else g)
      = w.fragments.map fun g => { g with overlap := g.overlap || f.overlaps g } :=
    List.map_congr_left fun g _ => by cases f.overlaps g <;> simp
  simp only [enter, Window.recover, hmap]

/-- A fragment entered by the Window Store is one entered as R106 to R109 say. -/
theorem entered_eq (h : w.covered.Pairwise (· < ·)) (f : Fragment) (tolerance need : Nat) (readers : List Slot) :
    w.entered f tolerance need readers =
      if (w.enter f tolerance need).endMark = true ∧ (w.enter f tolerance need).Complete then
        (w.enter f tolerance need).shut .complete readers
      else w.enter f tolerance need := by
  have hplace (new : Fragment) (l : List Fragment) :
      l.takeWhile (fun g => !new.before g) ++ new :: l.dropWhile (fun g => !new.before g)
        = l.orderedInsert (fun a b => a.before b = true) new := by
    rw [List.orderedInsert_eq_take_drop]
    simp
  have hfiled : w.enter f tolerance need = { w with
      fragments := (w.enter f tolerance need).fragments
      covered := (List.finRange 128).filter fun n =>
        if n = f.station then decide (need ≤ (w.enter f tolerance need).goodSamples f.station)
        else decide (n ∈ w.covered) } := by
    rw [← decide_member h]
    rfl
  unfold entered
  simp only [← overlaps_eq, hplace, ← enter_fragments w f tolerance need]
  conv_rhs => rw [hfiled]
  rfl

end Window

end Sys2Proof.Machine

/-! PROOFS. Windows that leave the ring: releases and reclaims (R116, R117, R132, R135). -/

namespace Sys2Proof.Machine

/-- A context whose cursor has lost its window (R132). -/
def Context.cursorGone (c : Context) : Context :=
  { c with reader := { c.reader with cursor := { c.reader.cursor with condition := .gone } } }

/-- A context that has missed window n (R135). -/
def Context.missing (c : Context) (n : Nat) : Context :=
  { c with
    reader := { c.reader with missed := min 65535 (c.reader.missed + 1), lastMissed := some n }
    attention := { c.attention with pending := c.attention.pending ||| 0x02#6 } }

theorem Cursor.not_standsOn_gone (c : Cursor) (n : Nat) : ¬Cursor.StandsOn { c with condition := .gone } n := by
  rintro ⟨-, h | h⟩ <;> cases h

namespace State

variable {s : State} {f g : Window → Option Window} {n : Nat} {m : Slot}

/-! ### Every window changed or out of the ring -/

/-- Every window held changed to what `f` makes of it, or out of the ring with the loss of the cursors that stand on it
(R116, R132). -/
def sieving (s : State) (f : Window → Option Window) : State :=
  { s with
    windows := vmap (fun o => o.bind f) s.windows
    contexts := vmap (fun c =>
      if ∃ w ∈ s.held, f w = none ∧ c.reader.cursor.StandsOn w.number then c.cursorGone else c) s.contexts }

theorem held_sieving (s : State) (f : Window → Option Window) : (s.sieving f).held = s.held.filterMap f := by
  rw [held_eq, sieving, vmap_toList, List.filterMap_map, held_eq, List.filterMap_filterMap]
  rfl

theorem sieving_congr (h : ∀ w ∈ s.held, f w = g w) : s.sieving f = s.sieving g := by
  have hwindows : vmap (fun o => o.bind f) s.windows = vmap (fun o => o.bind g) s.windows := by
    refine vmap_congr fun o ho => ?_
    cases o with
    | none => rfl
    | some w => exact h w (mem_held.mpr ho)
  have hlost (c : Context) : (∃ w ∈ s.held, f w = none ∧ c.reader.cursor.StandsOn w.number) ↔
      ∃ w ∈ s.held, g w = none ∧ c.reader.cursor.StandsOn w.number :=
    exists_congr fun w => and_congr_right fun hw => by rw [h w hw]
  simp only [sieving, hwindows, hlost]

theorem sieving_some (s : State) : s.sieving some = s := by
  have hwindows : (fun o : Option Window => o.bind some) = fun o => o := funext fun o => by cases o <;> rfl
  simp only [sieving, hwindows, vmap_id, reduceCtorEq, false_and, and_false, exists_false, if_false]

/-- Two sieves one after the other are one. -/
theorem sieving_sieving (hf : ∀ w v, f w = some v → v.number = w.number) (g : Window → Option Window) :
    (s.sieving f).sieving g = s.sieving fun w => (f w).bind g := by
  have hwindows : (fun o : Option Window => o.bind g) ∘ (fun o : Option Window => o.bind f)
      = fun o : Option Window => o.bind fun w => (f w).bind g :=
    funext fun o => Option.bind_assoc o f g
  have hlost (c : Context) : (∃ w ∈ s.held, (f w).bind g = none ∧ c.reader.cursor.StandsOn w.number) ↔
      (∃ w ∈ s.held, f w = none ∧ c.reader.cursor.StandsOn w.number) ∨
        ∃ v ∈ s.held.filterMap f, g v = none ∧ c.reader.cursor.StandsOn v.number := by
    constructor
    · rintro ⟨w, hw, hnone, hs⟩
      cases hfw : f w with
      | none => exact .inl ⟨w, hw, hfw, hs⟩
      | some v =>
        rw [hfw] at hnone
        exact .inr ⟨v, List.mem_filterMap.mpr ⟨w, hw, hfw⟩, hnone, hf w v hfw ▸ hs⟩
    · rintro (⟨w, hw, hfw, hs⟩ | ⟨v, hv, hgv, hs⟩)
      · exact ⟨w, hw, by rw [hfw]; rfl, hs⟩
      · obtain ⟨w, hw, hfw⟩ := List.mem_filterMap.mp hv
        exact ⟨w, hw, by rw [hfw]; exact hgv, hf w v hfw ▸ hs⟩
  have hcontexts : ((fun c : Context => if ∃ v ∈ s.held.filterMap f, g v = none ∧ c.reader.cursor.StandsOn v.number then
        c.cursorGone else c) ∘ fun c =>
          if ∃ w ∈ s.held, f w = none ∧ c.reader.cursor.StandsOn w.number then c.cursorGone else c)
      = fun c => if ∃ w ∈ s.held, (f w).bind g = none ∧ c.reader.cursor.StandsOn w.number then c.cursorGone else c := by
    funext c
    by_cases hfirst : ∃ w ∈ s.held, f w = none ∧ c.reader.cursor.StandsOn w.number
    · rw [Function.comp, if_pos hfirst, if_pos ((hlost c).mpr (.inl hfirst)), if_neg]
      rintro ⟨v, -, -, hs⟩
      exact Cursor.not_standsOn_gone _ _ hs
    · rw [Function.comp, if_neg hfirst]
      exact if_congr (((hlost c).trans (or_iff_right hfirst)).symm) rfl rfl
  have hheld := held_sieving s f
  unfold sieving at hheld ⊢
  simp only [hheld, vmap_vmap, hwindows, hcontexts]

/-- A sieve keeps numbers distinct. -/
theorem Distinct.sieving (h : s.Distinct) (hf : ∀ w v, f w = some v → v.number = w.number) : (s.sieving f).Distinct := by
  have hsub (l : List Window) : ((l.filterMap f).map Window.number).Sublist (l.map Window.number) := by
    induction l with
    | nil => exact .slnil
    | cons w l ih =>
      cases hw : f w with
      | none => simpa [hw] using ih.cons w.number
      | some v => simpa [hw, hf w v hw] using ih.cons_cons w.number
  rw [Distinct, held_sieving]
  exact h.sublist (hsub _)

theorem without_eq_sieving (s : State) (gone : Window → Bool) :
    s.without gone = s.sieving fun w => if gone w then none else some w := by
  have hwindows : (fun o : Option Window => o.filter fun w => !gone w)
      = fun o : Option Window => o.bind fun w => if gone w then none else some w := by
    funext o
    cases o with
    | none => rfl
    | some w => cases hw : gone w <;> simp [hw]
  have hnone (w : Window) : (if gone w then none else some w) = none ↔ gone w = true := by
    cases gone w <;> simp
  simp only [without, sieving, hwindows, hnone]
  rfl

/-- The window of one number leaves the ring (R116, R117). -/
theorem dropWindow_eq_sieving {w : Window} (hw : w ∈ s.held) (hn : w.number = n) :
    s.dropWindow n = s.sieving fun w => if w.number = n then none else some w := by
  have hwindows : (fun o : Option Window => o.filter fun w => w.number != n)
      = fun o : Option Window => o.bind fun w => if w.number = n then none else some w := by
    funext o
    cases o with
    | none => rfl
    | some w => by_cases hw : w.number = n <;> simp [hw]
  have hlost (c : Context) : (∃ w ∈ s.held, (if w.number = n then none else some w) = none ∧
      c.reader.cursor.StandsOn w.number) ↔ c.reader.cursor.StandsOn n := by
    constructor
    · rintro ⟨x, -, hx, hs⟩
      have hxn : x.number = n := by
        by_contra hne
        rw [if_neg hne] at hx
        cases hx
      exact hxn ▸ hs
    · exact fun hs => ⟨w, hw, if_pos hn, hn ▸ hs⟩
  have hcursor (c : Context) : { c with reader := { c.reader with cursor := c.reader.cursor.lose n } }
      = if c.reader.cursor.StandsOn n then c.cursorGone else c := by
    unfold Cursor.lose
    split <;> rfl
  unfold dropWindow sieving
  simp only [modAllCtx, hwindows, hlost, hcursor]

/-! ### Reclaims (R117, R135) -/

theorem ctx_missWindow (s : State) (m : Slot) (n : Nat) (k : Slot) :
    (s.missWindow m n).ctx k = if k = m then (s.ctx m).missing n else s.ctx k := by
  unfold missWindow
  rw [ctx_raise]
  split
  next => rw [ctx_modReader_same]; rfl
  next hk => exact ctx_modCtx_of_ne hk s _

/-- Slots that miss window n, each once (R135). -/
theorem foldl_missWindow {l : List Slot} (hl : l.Nodup) (s : State) (n : Nat) :
    l.foldl (fun t m => t.missWindow m n) s =
      { s with contexts := Vector.ofFn fun k : Slot => if k ∈ l then (s.ctx k).missing n else s.ctx k } := by
  induction l generalizing s with
  | nil =>
    have hsame : s.contexts = Vector.ofFn fun k : Slot => s.ctx k := Vector.ext fun i hi => by simp [ctx]
    simp only [List.foldl_nil, List.not_mem_nil, if_false, ← hsame]
  | cons m l ih =>
    obtain ⟨hm, hl⟩ := List.nodup_cons.mp hl
    have hslots : (fun k : Slot => if k ∈ l then ((s.missWindow m n).ctx k).missing n else (s.missWindow m n).ctx k)
        = fun k => if k ∈ m :: l then (s.ctx k).missing n else s.ctx k := by
      funext k
      rw [ctx_missWindow]
      by_cases hk : k = m
      · simp [hk, hm]
      · simp [hk]
    rw [List.foldl_cons, ih hl, hslots]
    rfl

/-- The reclaim of a window held (R117, R135). -/
theorem reclaim_eq (h : s.Distinct) {w : Window} (hw : w ∈ s.held) (hp : w.pending.Nodup) :
    s.reclaim w.number = s.losing w := by
  have hdrop (t : State) (ht : t.held = s.held) : t.dropWindow w.number = t.without fun x => x.number == w.number := by
    rw [dropWindow_eq_sieving (ht ▸ hw) rfl, without_eq_sieving]
    simp only [beq_iff_eq]
  unfold reclaim
  rw [findWindow_of_mem h hw]
  dsimp only
  rw [foldl_missWindow hp]
  exact hdrop _ rfl

theorem RingGood.window (h : s.RingGood) {w : Window} (hw : w ∈ s.held) : w.Good :=
  let ⟨_, _, hgood, _⟩ := h
  hgood w hw

end State

end Sys2Proof.Machine

/-! PROOFS. Releases of windows, WITHDRAW and RELEASE (R116, R123, R124, R134). -/

namespace Sys2Proof.Machine

/-- A window whose pending set holds slot m no more. -/
def Window.notOwed (m : Slot) (w : Window) : Window := { w with pending := w.pending.filter (· != m) }

/-- A window whose pending set has lost slot m: out of the ring if the set is empty (R116). -/
def Window.released (m : Slot) (w : Window) : Option Window :=
  if (w.notOwed m).pending = [] then none else some (w.notOwed m)

theorem Window.released_number {m : Slot} {w v : Window} (h : w.released m = some v) : v.number = w.number := by
  unfold released at h
  split at h
  · cases h
  · cases h
    rfl

namespace State

variable {s : State} {f g : Window → Option Window} {n : Nat} {m : Slot}

/-- The window of one number changed or out of the ring. -/
def sieveAt (n : Nat) (f : Window → Option Window) (w : Window) : Option Window := if w.number = n then f w else some w

theorem sieveAt_number (hf : ∀ w v, f w = some v → v.number = w.number) (w v : Window) (h : sieveAt n f w = some v) :
    v.number = w.number := by
  unfold sieveAt at h
  split at h
  · exact hf w v h
  · cases h
    rfl

/-- A change of one window loses no cursor. -/
theorem modWindow_eq_sieving (s : State) (n : Nat) (f : Window → Window) :
    s.modWindow n f = s.sieving fun w => some (if w.number = n then f w else w) := by
  have hwindows : (Option.map fun w : Window => if w.number = n then f w else w)
      = fun o : Option Window => o.bind fun w => some (if w.number = n then f w else w) :=
    funext fun o => by cases o <;> rfl
  simp only [modWindow, sieving, hwindows, reduceCtorEq, false_and, and_false, exists_false, if_false, vmap_id]

/-- One slot taken off the pending set of a window held (R116). -/
theorem releaseWindow_eq (h : s.Distinct) {w : Window} (hw : w ∈ s.held) (m : Slot) :
    s.releaseWindow m w.number =
      (s.sieving (sieveAt w.number (Window.released m)), decide ((w.notOwed m).pending = [])) := by
  have hleft : s.modWindow w.number (Window.notOwed m)
      = s.sieving fun x => some (if x.number = w.number then x.notOwed m else x) := modWindow_eq_sieving s _ _
  have hnumber (x v : Window) (hv : some (if x.number = w.number then x.notOwed m else x) = some v) :
      v.number = x.number := by
    cases hv
    split <;> rfl
  have hdistinct : (s.modWindow w.number (Window.notOwed m)).Distinct := hleft ▸ h.sieving hnumber
  have hmem : w.notOwed m ∈ (s.modWindow w.number (Window.notOwed m)).held := by
    rw [held_modWindow]
    exact List.mem_map.mpr ⟨w, hw, if_pos rfl⟩
  have hfound : (s.modWindow w.number (Window.notOwed m)).findWindow w.number = some (w.notOwed m) :=
    findWindow_of_mem hdistinct hmem
  have hone (x : Window) (hx : x ∈ s.held) (hn : x.number = w.number) : x = w := h.eq hx hw hn
  unfold releaseWindow
  change (match (s.modWindow w.number (Window.notOwed m)).findWindow w.number with
    | some v => if v.pending.isEmpty then ((s.modWindow w.number (Window.notOwed m)).dropWindow w.number, true)
      else (s.modWindow w.number (Window.notOwed m), false)
    | none => (s.modWindow w.number (Window.notOwed m), false)) = _
  rw [hfound]
  dsimp only
  by_cases hempty : (w.notOwed m).pending = []
  · rw [if_pos (List.isEmpty_iff.mpr hempty), decide_eq_true hempty, dropWindow_eq_sieving hmem (n := w.number) rfl, hleft,
      sieving_sieving hnumber]
    refine congrArg (·, true) (sieving_congr fun x hx => ?_)
    unfold sieveAt
    by_cases hn : x.number = w.number
    · rw [hone x hx hn, if_pos rfl, if_pos rfl, Window.released, if_pos hempty]
      exact if_pos rfl
    · rw [if_neg hn, if_neg hn]
      exact if_neg hn
  · rw [if_neg (mt List.isEmpty_iff.mp hempty), decide_eq_false hempty, hleft]
    refine congrArg (·, false) (sieving_congr fun x hx => ?_)
    unfold sieveAt
    by_cases hn : x.number = w.number
    · rw [hone x hx hn, if_pos rfl, if_pos rfl, Window.released, if_neg hempty]
    · rw [if_neg hn, if_neg hn]

/-- The windows held are those that stay and, when the window of one number goes, that one. -/
theorem length_held_sieveAt (h : s.Distinct) {w : Window} (hw : w ∈ s.held) (f : Window → Option Window) :
    (decide (f w = none)).toNat + (s.sieving (sieveAt w.number f)).held.length = s.held.length := by
  have hsplit := List.length_eq_countP_add_countP (fun x => (sieveAt w.number f x).isSome) (l := s.held)
  have hgone : s.held.countP (fun x => decide ¬(sieveAt w.number f x).isSome = true) = (decide (f w = none)).toNat := by
    by_cases hf : f w = none
    · have hcount : s.held.countP (fun x => x.number == w.number) = 1 := by
        have hmap := List.count_eq_one_of_mem h (List.mem_map_of_mem hw)
        rwa [List.count, List.countP_map] at hmap
      rw [decide_eq_true hf, Bool.toNat_true, ← hcount]
      refine List.countP_congr fun x hx => ?_
      by_cases hn : x.number = w.number
      · have hx : x = w := h.eq hx hw hn
        simp [sieveAt, hx, hf]
      · simp [sieveAt, hn]
    · rw [decide_eq_false hf, Bool.toNat_false, List.countP_eq_zero]
      intro x hx
      by_cases hn : x.number = w.number
      · have hx : x = w := h.eq hx hw hn
        simp [sieveAt, hx, hf]
      · simp [sieveAt, hn]
  rw [held_sieving, List.length_filterMap_eq_countP, hsplit, hgone, Nat.add_comm]

/-- Windows released one after the other, with the number of those that leave the ring (R116). -/
theorem foldl_releaseWindow (m : Slot) {ns : List Nat} (h : s.Distinct) (hns : ns.Nodup)
    (hheld : ∀ n ∈ ns, ∃ w ∈ s.held, w.number = n) (k : Nat) :
    (ns.foldl (fun p n => let q := p.1.releaseWindow m n; (q.1, p.2 + q.2.toNat)) (s, k)).1
        = s.sieving (fun w => if w.number ∈ ns then w.released m else some w)
      ∧ (ns.foldl (fun p n => let q := p.1.releaseWindow m n; (q.1, p.2 + q.2.toNat)) (s, k)).2
          + (s.sieving fun w => if w.number ∈ ns then w.released m else some w).held.length = k + s.held.length := by
  induction ns generalizing s k with
  | nil =>
    have hid : (fun w : Window => if w.number ∈ ([] : List Nat) then w.released m else some w) = some :=
      funext fun w => if_neg List.not_mem_nil
    rw [hid, sieving_some]
    exact ⟨rfl, rfl⟩
  | cons n ns ih =>
    obtain ⟨w, hw, rfl⟩ := hheld n List.mem_cons_self
    obtain ⟨hn, hrestnodup⟩ := List.nodup_cons.mp hns
    have hnumber := sieveAt_number (n := w.number) fun x v => Window.released_number (m := m) (w := x) (v := v)
    have hsieve : ((s.sieving (sieveAt w.number (Window.released m))).sieving
        fun x => if x.number ∈ ns then x.released m else some x)
          = s.sieving fun x => if x.number ∈ w.number :: ns then x.released m else some x := by
      rw [sieving_sieving hnumber]
      refine sieving_congr fun x hx => ?_
      unfold sieveAt
      by_cases hx : x.number = w.number
      · rw [if_pos hx, if_pos (hx ▸ List.mem_cons_self)]
        cases hr : x.released m with
        | none => rfl
        | some v => exact if_neg (by rw [Window.released_number hr, hx]; exact hn)
      · rw [if_neg hx]
        exact if_congr (by simp [hx]) rfl rfl
    have hrest : ∀ k ∈ ns, ∃ x ∈ (s.sieving (sieveAt w.number (Window.released m))).held, x.number = k := by
      intro k hk
      obtain ⟨x, hx, rfl⟩ := hheld k (List.mem_cons_of_mem _ hk)
      refine ⟨x, ?_, rfl⟩
      rw [held_sieving]
      exact List.mem_filterMap.mpr ⟨x, hx, if_neg fun he : x.number = w.number => hn (he ▸ hk)⟩
    have hlength := length_held_sieveAt h hw (Window.released m)
    have hfreed : decide ((w.notOwed m).pending = []) = decide (w.released m = none) := by
      simp [Window.released]
    obtain ⟨hstate, hcount⟩ := ih (h.sieving hnumber) hrestnodup hrest (k + (decide ((w.notOwed m).pending = [])).toNat)
    rw [hsieve] at hstate hcount
    rw [List.foldl_cons]
    dsimp only
    rw [releaseWindow_eq h hw]
    refine ⟨hstate, hcount.trans ?_⟩
    rw [hfreed]
    omega

/-! ### Slot m taken off every pending set (R116) -/

/-- The windows that owe slot m alone out of the ring, and m off every other pending set (R116). -/
def releasedBy (s : State) (m : Slot) : State :=
  let freed := s.without fun w => decide (w.pending = [m])
  { freed with windows := vmap (Option.map fun w => { w with pending := w.pending.filter (· ≠ m) }) freed.windows }

theorem releasedBy_eq_sieving (s : State) (m : Slot) :
    s.releasedBy m = s.sieving fun w => if w.pending = [m] then none else some (w.notOwed m) := by
  have hfilter (w : Window) : w.pending.filter (· ≠ m) = w.pending.filter (· != m) :=
    List.filter_congr fun k _ => by by_cases hk : k = m <;> simp [hk]
  have hwindows : (Option.map fun w : Window => { w with pending := w.pending.filter (· ≠ m) })
      ∘ (fun o : Option Window => o.bind fun w => if decide (w.pending = [m]) then none else some w)
        = fun o : Option Window => o.bind fun w => if w.pending = [m] then none else some (w.notOwed m) := by
    funext o
    cases o with
    | none => rfl
    | some w => by_cases hw : w.pending = [m] <;> simp [hw, ← hfilter, Window.notOwed]
  have hnone (w : Window) : (if decide (w.pending = [m]) then none else some w) = none ↔
      (if w.pending = [m] then none else some (w.notOwed m)) = none := by
    by_cases hw : w.pending = [m] <;> simp [hw]
  unfold releasedBy
  rw [without_eq_sieving]
  unfold sieving
  simp only [vmap_vmap, hwindows, hnone]

/-- The pending set of a window, without repeats, that loses slot m. -/
theorem notOwed_pending_eq_nil {w : Window} (hp : w.pending.Nodup) (hm : m ∈ w.pending) :
    (w.notOwed m).pending = [] ↔ w.pending = [m] := by
  constructor
  · intro hnil
    have hall : ∀ k ∈ w.pending, k = m := fun k hk => by simpa using List.filter_eq_nil_iff.mp hnil k hk
    have hlength : w.pending = List.replicate w.pending.length m := List.eq_replicate_of_mem hall
    have hone : w.pending.length ≤ 1 := List.nodup_replicate.mp (hlength ▸ hp)
    rw [hlength, Nat.le_antisymm hone (List.length_pos_of_mem hm), List.replicate_one]
  · intro hone
    simp [Window.notOwed, hone]

/-- WITHDRAW's and CONTEXT RESET's releases of every window, with the number freed (R116). -/
theorem releaseAll_eq (h : s.RingGood) (m : Slot) :
    s.releaseAll m = (s.releasedBy m, (s.held.filter fun w => decide (w.pending = [m])).length) := by
  have hnodup {w : Window} (hw : w ∈ s.held) : w.pending.Nodup :=
    let ⟨_, _, hp, _, _⟩ := h.window hw
    hp.imp fun h => ne_of_lt h
  have howed {w : Window} (hw : w ∈ s.held) : w.number ∈ s.owedTo m ↔ m ∈ w.pending := by
    obtain ⟨-, -, -, -, hopen⟩ := h.window hw
    have hmem : w.number ∈ s.owedTo m ↔
        ∃ x ∈ s.held, (!x.isOpen && x.pending.contains m) = true ∧ x.number = w.number := by
      simp [owedTo, numbersWhere, and_assoc]
    rw [hmem]
    constructor
    · rintro ⟨x, hx, hc, hn⟩
      rw [h.distinct.eq hw hx hn.symm]
      simpa using And.right (by simpa using hc)
    · intro hm
      refine ⟨w, hw, ?_, rfl⟩
      cases ho : w.isOpen with
      | true => simp [hopen ho] at hm
      | false => simp [hm]
  have hns : (s.owedTo m).Nodup := (pairwise_numbersWhere h.distinct _).imp fun h => ne_of_lt h
  have hheld : ∀ n ∈ s.owedTo m, ∃ w ∈ s.held, w.number = n := by
    intro n hn
    obtain ⟨w, ⟨hw, -⟩, rfl⟩ : ∃ w, (w ∈ s.held ∧ _) ∧ w.number = n := by
      simpa [owedTo, numbersWhere] using hn
    exact ⟨w, hw, rfl⟩
  have hsieve : (s.sieving fun w => if w.number ∈ s.owedTo m then w.released m else some w) = s.releasedBy m := by
    rw [releasedBy_eq_sieving]
    refine sieving_congr fun w hw => ?_
    by_cases hm : m ∈ w.pending
    · rw [if_pos ((howed hw).mpr hm), Window.released]
      exact if_congr (notOwed_pending_eq_nil (hnodup hw) hm) rfl rfl
    · have hkept : w.notOwed m = w := by
        have hall : w.pending.filter (· != m) = w.pending :=
          List.filter_eq_self.mpr fun k hk => by simpa using ne_of_mem_of_not_mem hk hm
        rw [Window.notOwed, hall]
      have hne : w.pending ≠ [m] := fun he => hm (he ▸ List.mem_singleton_self m)
      rw [if_neg (mt (howed hw).mp hm), if_neg hne, hkept]
  obtain ⟨hstate, hcount⟩ := foldl_releaseWindow m h.distinct hns hheld 0
  rw [hsieve] at hstate hcount
  refine Prod.ext hstate ?_
  have hleft : (s.releasedBy m).held.length = s.held.countP fun w => !decide (w.pending = [m]) := by
    rw [releasedBy_eq_sieving, held_sieving, List.length_filterMap_eq_countP]
    exact List.countP_congr fun w _ => by by_cases hw : w.pending = [m] <;> simp [hw]
  have hall := List.length_eq_countP_add_countP (fun w => decide (w.pending = [m])) (l := s.held)
  have hnot : s.held.countP (fun w => decide ¬decide (w.pending = [m]) = true)
      = s.held.countP fun w => !decide (w.pending = [m]) := List.countP_congr fun w _ => by simp
  rw [hnot] at hall
  rw [← List.countP_eq_length_filter]
  unfold releaseAll
  omega

end State

end Sys2Proof.Machine

/-! PROOFS. ENROL, WITHDRAW and RELEASE (R123, R124, R134). -/

namespace Sys2Proof.Machine

theorem flagBit_zero (b : Bool) : flagBit b 0 = if b then 1 else 0 := by
  cases b <;> rfl

namespace State

variable {s : State} {f : Window → Option Window} {n : Nat} {m : Slot} {w : Window}

/-- A sieve of windows stays apart from a change of contexts that leaves the readers alone. -/
theorem sieving_modCtx {g : Context → Context} (hreader : ∀ c, (g c).reader = c.reader)
    (hgone : ∀ c, (g c).cursorGone = g c.cursorGone) (s : State) (m : Slot) (f : Window → Option Window) :
    (s.modCtx m g).sieving f = (s.sieving f).modCtx m g := by
  have hctx (k : Slot) : ((s.modCtx m g).sieving f).ctx k = ((s.sieving f).modCtx m g).ctx k := by
    have hsieve (t : State) (j : Slot) : (t.sieving f).ctx j =
        if ∃ w ∈ t.held, f w = none ∧ (t.ctx j).reader.cursor.StandsOn w.number then (t.ctx j).cursorGone else t.ctx j :=
      vmap_getElem _ t.contexts j.val j.isLt
    have hheld : (s.modCtx m g).held = s.held := rfl
    rw [hsieve, hheld]
    by_cases hk : k = m
    · subst hk
      rw [ctx_modCtx_same, ctx_modCtx_same, hsieve, hreader, hgone]
      split <;> rfl
    · rw [ctx_modCtx_of_ne hk, ctx_modCtx_of_ne hk, hsieve]
  exact congrArg (fun c => { s with windows := vmap (fun o : Option Window => o.bind f) s.windows, contexts := c })
    (contexts_ext hctx)

theorem sieving_noteCode (s : State) (m : Slot) (v : Word) (f : Window → Option Window) :
    (s.noteCode m v).sieving f = (s.sieving f).noteCode m v := by
  refine sieving_modCtx ?_ ?_ s m f
  · exact fun _ => rfl
  · exact fun _ => rfl

theorem releasedBy_noteCode (s : State) (m k : Slot) (v : Word) :
    (s.noteCode k v).releasedBy m = (s.releasedBy m).noteCode k v := by
  rw [releasedBy_eq_sieving, releasedBy_eq_sieving, sieving_noteCode]

/-! ### ENROL and WITHDRAW (R123, R124) -/

theorem exec_enrol (h : s.Ready m) : exec (.enrol m) s = .next (((s.noteCode m 11).requestEnrol m).answer .ok none) :=
  congrArg Host.Outcome.next (onRequest_of_ready h 11 _)

theorem exec_withdraw (h : s.Ready m) :
    exec (.withdraw m) s = .next (((s.noteCode m 12).requestWithdraw m).answer .ok none) :=
  congrArg Host.Outcome.next (onRequest_of_ready h 12 _)

theorem requestWithdraw_of_not_enrolled (h : (s.ctx m).reader.enrolled = false) :
    s.requestWithdraw m = s.completeBare m .ok := if_neg (by simp [h])

theorem requestWithdraw_of_enrolled (hring : s.RingGood) (h : (s.ctx m).reader.enrolled = true) :
    s.requestWithdraw m = ((s.modReader m fun r => { r with enrolled := false }).releasedBy m).complete m .ok
      ⟨BitVec.ofNat 32 (s.held.filter fun w => decide (w.pending = [m])).length, 0, 0⟩ := by
  have hleft : (s.modReader m fun r => { r with enrolled := false }).RingGood := hring
  rw [requestWithdraw, if_pos h, releaseAll_eq hleft]
  rfl

end State

/-- Settles O48: WITHDRAW by `releaseAll_eq`. -/
theorem enrolAndWithdraw : Obligations.EnrolAndWithdraw := by
  intro s m hready hring
  refine ⟨?_, fun hout => ?_, fun hin => ?_⟩
  · rw [State.exec_enrol hready, State.requestEnrol, State.modReader_noteCode, State.answer_complete_noteCode,
      State.reader_noteCode, flagBit_zero]
    rfl
  · rw [State.exec_withdraw hready, State.requestWithdraw_of_not_enrolled (by rw [State.reader_noteCode]; exact hout),
      State.answer_completeBare_noteCode]
    rfl
  · have hnoted : (s.noteCode m 12).RingGood := hring
    rw [State.exec_withdraw hready,
      State.requestWithdraw_of_enrolled hnoted (by rw [State.reader_noteCode]; exact hin), State.modReader_noteCode,
      State.releasedBy_noteCode, State.answer_complete_noteCode]
    rfl

/-! ### RELEASE (R134) -/

namespace State

variable {s : State} {f : Window → Option Window} {n : Nat} {m : Slot} {w : Window}

theorem releaseWindow_of_kept (h : s.Distinct) (hw : w ∈ s.held) (hleft : (w.notOwed m).pending ≠ []) :
    s.releaseWindow m w.number = (s.modWindow w.number (Window.notOwed m), false) := by
  rw [releaseWindow_eq h hw, decide_eq_false hleft, modWindow_eq_sieving]
  refine congrArg (·, false) (sieving_congr fun x hx => ?_)
  unfold sieveAt
  split
  next hn => rw [h.eq hx hw hn, Window.released, if_neg hleft]
  · rfl

theorem releaseWindow_of_freed (h : s.Distinct) (hw : w ∈ s.held) (hleft : (w.notOwed m).pending = []) :
    s.releaseWindow m w.number = (s.without fun x => x.number == w.number, true) := by
  rw [releaseWindow_eq h hw, decide_eq_true hleft, without_eq_sieving]
  refine congrArg (·, true) (sieving_congr fun x hx => ?_)
  unfold sieveAt
  split
  next hn => rw [h.eq hx hw hn, Window.released, if_pos hleft, if_pos (beq_self_eq_true _)]
  next hn => exact (if_neg (by simpa using hn)).symm

theorem exec_release (h : s.Ready m) :
    exec (.release m) s = .next (((s.noteCode m 14).requestRelease m).answer .ok none) :=
  congrArg Host.Outcome.next (onRequest_of_ready h 14 _)

theorem requestRelease_of_none (h : ∀ w ∈ s.held, w.number ≠ s.argWide m 0 1) :
    s.requestRelease m = s.completeBare m .noWindow := by
  rw [requestRelease, findWindow_none.mpr h]

section

variable (h : s.Distinct) (hw : w ∈ s.held) (hn : w.number = s.argWide m 0 1)

include h hw hn

theorem requestRelease_of_open (ho : w.isOpen = true) : s.requestRelease m = s.completeBare m .notClosed := by
  rw [requestRelease, ← hn, findWindow_of_mem h hw]
  exact if_pos ho

theorem requestRelease_of_not_pending (ho : w.isOpen = false) (hm : m ∉ w.pending) :
    s.requestRelease m = s.completeBare m .notPending := by
  rw [requestRelease, ← hn, findWindow_of_mem h hw]
  simp [ho, hm]

theorem requestRelease_of_pending (ho : w.isOpen = false) (hm : m ∈ w.pending) :
    s.requestRelease m = (s.releaseWindow m w.number).1.complete m .ok
      ⟨s.arg m 0, s.arg m 1, flagBit (s.releaseWindow m w.number).2 0⟩ := by
  obtain ⟨hlow, hhigh⟩ : loWord w.number = s.arg m 0 ∧ hiWord w.number = s.arg m 1 := by
    rw [hn]
    exact wide_toNat _ _
  rw [requestRelease, ← hn, findWindow_of_mem h hw]
  dsimp only
  rw [if_neg (by simp [ho]), if_pos (by simpa using hm), hlow, hhigh]

end

theorem ctx_without (s : State) (gone : Window → Bool) (k : Slot) :
    (s.without gone).ctx k =
      if ∃ w ∈ s.held, gone w = true ∧ (s.ctx k).reader.cursor.StandsOn w.number then (s.ctx k).cursorGone else s.ctx k :=
  vmap_getElem _ s.contexts k.val k.isLt

@[simp] theorem reader_answered (s : State) (m k : Slot) (code : BitVec 8) (st : Status) (v : Values) :
    ((s.answered m code st v).ctx k).reader = (s.ctx k).reader := by
  have hctx : (s.answered m code st v).ctx k = if k = m then _ else s.ctx k := ctx_setCtx { s with bus := ⟨.ok, none⟩ } m k _
  rw [hctx]
  split
  next hk => rw [hk]
  · rfl

/-- A request completed after windows have left the ring is one completed before it. -/
theorem answered_without (s : State) (m : Slot) (code : BitVec 8) (st : Status) (v : Values) (gone : Window → Bool) :
    (s.without gone).answered m code st v = (s.answered m code st v).without gone := by
  rw [without_eq_sieving, without_eq_sieving]
  refine (sieving_modCtx (s := { s with bus := ⟨.ok, none⟩ }) (m := m) (g := fun c => { c with
    request := { c.request with
      inFlight := false, lastCode := code, number := c.request.number + 1
      result := ⟨code, c.request.number + 1, st, v⟩ }
    attention := { c.attention with pending := c.attention.pending ||| 0x20#6 } }) (fun _ => rfl) (fun _ => rfl) _).symm

/-- The readers after the one window of a number has left the ring (R132). -/
theorem reader_without_number (hw : w ∈ s.held) (k : Slot) :
    ((s.without fun x => x.number == w.number).ctx k).reader =
      { (s.ctx k).reader with
        cursor := if (s.ctx k).reader.cursor.StandsOn w.number then { (s.ctx k).reader.cursor with condition := .gone }
          else (s.ctx k).reader.cursor } := by
  have hlost : (∃ x ∈ s.held, (fun x : Window => x.number == w.number) x = true
      ∧ (s.ctx k).reader.cursor.StandsOn x.number) ↔
      (s.ctx k).reader.cursor.StandsOn w.number := by
    constructor
    · rintro ⟨x, -, hx, hs⟩
      exact beq_iff_eq.mp hx ▸ hs
    · exact fun hs => ⟨w, hw, beq_self_eq_true _, hs⟩
  rw [ctx_without]
  by_cases hs : (s.ctx k).reader.cursor.StandsOn w.number
  · rw [if_pos (hlost.mpr hs), if_pos hs]
    rfl
  · rw [if_neg (mt hlost.mp hs), if_neg hs]

/-- A window that leaves the ring raises nothing. -/
theorem pending_without (s : State) (gone : Window → Bool) (k : Slot) :
    ((s.without gone).ctx k).attention.pending = (s.ctx k).attention.pending := by
  rw [ctx_without]
  split <;> rfl

end State

/-- Settles O47: a release that leaves slots to wait for changes one window, and the last one frees it. -/
theorem releaseFreesTheLastOwed : Obligations.ReleaseFreesTheLastOwed := by
  intro s m hready hring n
  have hwide : (s.noteCode m 14).argWide m 0 1 = n := State.argWide_noteCode ..
  have hdistinct : (s.noteCode m 14).Distinct := hring.distinct
  rw [State.exec_release hready]
  refine ⟨fun hnone => ?_, fun w hw hn => ⟨fun ho => ?_, fun ho hm => ?_, fun ho hm hothers => ?_, fun ho halone => ?_⟩⟩
  · rw [State.requestRelease_of_none (by rw [hwide]; exact hnone), State.answer_completeBare_noteCode]
    rfl
  · rw [State.requestRelease_of_open hdistinct hw (hn.trans hwide.symm) ho, State.answer_completeBare_noteCode]
    rfl
  · rw [State.requestRelease_of_not_pending hdistinct hw (hn.trans hwide.symm) ho hm, State.answer_completeBare_noteCode]
    rfl
  · obtain ⟨k, hk, hne⟩ := hothers
    have hleft : (w.notOwed m).pending ≠ [] := List.ne_nil_of_mem (List.mem_filter.mpr ⟨hk, by simpa using hne⟩)
    have hmod : (s.noteCode m 14).modWindow w.number (Window.notOwed m)
        = (s.modWindow w.number (Window.notOwed m)).noteCode m 14 := rfl
    rw [State.requestRelease_of_pending hdistinct hw (hn.trans hwide.symm) ho hm,
      State.releaseWindow_of_kept hdistinct hw hleft, hmod, State.answer_complete_noteCode, State.arg_noteCode,
      State.arg_noteCode, flagBit_zero]
    refine ⟨_, rfl, rfl, ?_⟩
    rw [← hn]
    exact State.held_modWindow s _ _
  · have hm : m ∈ w.pending := halone ▸ List.mem_singleton_self m
    have hleft : (w.notOwed m).pending = [] := by simp [Window.notOwed, halone]
    have hgone : (s.noteCode m 14).without (fun x => x.number == w.number)
        = (s.without fun x => x.number == w.number).noteCode m 14 := by
      rw [State.without_eq_sieving, State.without_eq_sieving, State.sieving_noteCode]
    rw [State.requestRelease_of_pending hdistinct hw (hn.trans hwide.symm) ho hm,
      State.releaseWindow_of_freed hdistinct hw hleft, hgone, State.answer_complete_noteCode, State.arg_noteCode,
      State.arg_noteCode, flagBit_zero, State.answered_without]
    refine ⟨_, rfl, State.without_step _ _, ?_, fun k => ⟨?_, State.pending_without _ _ k⟩⟩
    · rw [← hn]
      exact State.held_without _ _
    · rw [← hn, ← State.reader_answered s m k 14 .ok ⟨s.arg m 0, s.arg m 1, 1⟩]
      exact State.reader_without_number (s := s.answered m 14 .ok ⟨s.arg m 0, s.arg m 1, 1⟩) hw k

end Sys2Proof.Machine

/-! PROOFS. What the operations on windows keep: windows in form, the numbers apart, the pool not overrun (R101, R102, R105 to
R109, R112, R116, R117). -/

namespace Sys2Proof.Machine

/-! ### Windows in form -/

namespace Window

variable {w : Window} {readers : List Slot}

theorem Good.shut (h : w.Good) (hr : readers.Pairwise (· < ·)) (reason : CloseReason) : (w.shut reason readers).Good := by
  obtain ⟨hexpected, hcovered, -, hfragments, -⟩ := h
  exact ⟨hexpected, hcovered, hr, hfragments, nofun⟩

theorem Good.marked (h : w.Good) : ({ w with endMark := true } : Window).Good := h

theorem Good.without (h : w.Good) (hr : readers.Pairwise (· < ·)) (n : StationNo) : (w.without n readers).Good := by
  obtain ⟨hexpected, hrest⟩ := h
  have hleft : ({ w with expected := w.expected.filter (· ≠ n) } : Window).Good := ⟨hexpected.filter _, hrest⟩
  unfold Window.without
  dsimp only
  split
  · split
    · exact hleft.shut hr _
    · exact hleft
  · exact ⟨hexpected, hrest⟩

theorem Good.endChecked (h : w.Good) (hr : readers.Pairwise (· < ·)) (p : Params) (now : Nat) :
    (State.endChecked p now readers w).Good := by
  unfold State.endChecked
  split_ifs
  · exact h.marked.shut hr _
  · exact h.marked.shut hr _
  · exact h.marked
  · exact h

theorem Good.shutIfOpen (h : w.Good) (hr : readers.Pairwise (· < ·)) (reason : CloseReason) :
    (State.shutIfOpen reason readers w).Good := by
  unfold State.shutIfOpen
  split
  · exact h.shut hr _
  · exact h

theorem Good.notOwed (h : w.Good) (m : Slot) : (w.notOwed m).Good := by
  obtain ⟨hexpected, hcovered, hpending, hfragments, hopen⟩ := h
  exact ⟨hexpected, hcovered, hpending.filter _, hfragments, fun ho => by simp [Window.notOwed, hopen ho]⟩

theorem without_fragments (w : Window) (n : StationNo) (readers : List Slot) :
    (w.without n readers).fragments = w.fragments := by
  unfold Window.without
  dsimp only
  split
  · split <;> rfl
  · rfl

theorem endChecked_fragments (w : Window) (p : Params) (now : Nat) (readers : List Slot) :
    (State.endChecked p now readers w).fragments = w.fragments := by
  unfold State.endChecked
  split_ifs <;> rfl

theorem shutIfOpen_fragments (w : Window) (reason : CloseReason) (readers : List Slot) :
    (State.shutIfOpen reason readers w).fragments = w.fragments := by
  unfold State.shutIfOpen
  split <;> rfl

end Window

/-- The order of R108: station, first sample time, sequence number. -/
theorem Fragment.before_iff (f g : Fragment) :
    f.before g = true ↔ f.station < g.station ∨ (f.station = g.station ∧
      (f.firstTime < g.firstTime ∨ (f.firstTime = g.firstTime ∧ f.sequence ≤ g.sequence))) := by
  simp [Fragment.before]

theorem Fragment.before_total (f g : Fragment) : f.before g = true ∨ g.before f = true := by
  simp only [Fragment.before_iff, Fin.lt_def, Fin.ext_iff]
  omega

theorem Fragment.before_trans {f g h : Fragment} (hfg : f.before g = true) (hgh : g.before h = true) :
    f.before h = true := by
  simp only [Fragment.before_iff, Fin.lt_def, Fin.ext_iff] at *
  omega

/-- A fragment entered keeps a window in form, in the order of R108. -/
theorem Window.Good.enter {w : Window} (h : w.Good) (f : Fragment) (tolerance need : Nat) :
    (w.enter f tolerance need).Good := by
  obtain ⟨hexpected, hcovered, hpending, hfragments, hopen⟩ := h
  refine ⟨hexpected, ?_, hpending, ?_, hopen⟩
  · change (if _ then _ else _ : List StationNo).Pairwise _
    split
    · exact pairwise_insertStation hcovered
    · exact hcovered.filter _
  · have : Std.Total fun a b : Fragment => a.before b = true := ⟨Fragment.before_total⟩
    have : IsTrans Fragment fun a b => a.before b = true := ⟨fun _ _ _ => Fragment.before_trans⟩
    rw [Window.enter_fragments]
    exact List.Pairwise.orderedInsert _ _ (List.pairwise_map.mpr hfragments)

theorem Window.enter_fragments_length (w : Window) (f : Fragment) (tolerance need : Nat) :
    (w.enter f tolerance need).fragments.length = w.fragments.length + 1 := by
  rw [Window.enter_fragments, List.orderedInsert_length, List.length_map]

namespace State

variable {s t : State} {f : Window → Window} {m : Slot} {n : Nat}

theorem readersEnrolled_pairwise (s : State) : s.readersEnrolled.Pairwise (· < ·) :=
  (List.pairwise_lt_finRange 4).filter _

theorem newWindow_good (s : State) (n : Nat) : (s.newWindow n).Good :=
  ⟨List.Pairwise.filter (fun k => (s.station k).state.inService) (List.pairwise_lt_finRange 128),
    .nil, .nil, .nil, fun _ => rfl⟩

/-! ### The ring in form -/

/-- The parts that the ring rests on. -/
def ringParts : Part → Bool
  | .windows | .mode => true
  | _ => false

theorem ringGood_restsOn : RestsOn State.RingGood ringParts := by
  intro s t hsame h
  have hwindows : t.windows = s.windows := hsame .windows rfl
  have hmode : t.part = s.part := hsame .mode rfl
  unfold RingGood usedFragments held at *
  rwa [hwindows, hmode]

theorem RingGood.of_changes (h : s.RingGood) {l : List Part} (hc : Changes l s t) (hw : .windows ∉ l) (hm : .mode ∉ l) :
    t.RingGood :=
  ringGood_restsOn.keep hc (fun p hp => by
    cases p with
    | windows => exact absurd hp hw
    | mode => exact absurd hp hm
    | _ => rfl) h

/-- Windows that leave the ring leave it in form. -/
theorem RingGood.of_subperm (h : s.RingGood) (hheld : t.held.Subperm s.held) (hpart : t.part = s.part) : t.RingGood := by
  obtain ⟨hnodup, hused, hgood, hsetup⟩ := h
  obtain ⟨l, hperm, hsub⟩ := hheld
  have hmem {w : Window} (hw : w ∈ t.held) : w ∈ s.held := hsub.subset (hperm.mem_iff.mpr hw)
  refine ⟨(hperm.map _).nodup_iff.mp (hnodup.sublist (hsub.map _)), ?_, fun w hw => hgood w (hmem hw), fun hp w hw =>
    hsetup (hpart ▸ hp) w (hmem hw)⟩
  have hsum : (l.map fun w => w.fragments.length).sum = t.usedFragments := (hperm.map _).sum_eq
  have hle : (l.map fun w => w.fragments.length).sum ≤ s.usedFragments :=
    (hsub.map _).sum_le_sum fun _ _ => Nat.zero_le _
  omega

/-- Windows changed keep the ring in form, if the fragments fit the pool (R102). -/
theorem RingGood.closing_of_fits (h : s.RingGood) (hf : Closes f) (hgood : ∀ w ∈ s.held, w.Good → (f w).Good)
    (hfits : (s.closing f).usedFragments ≤ 4096) : (s.closing f).RingGood := by
  obtain ⟨hnodup, -, hall, hsetup⟩ := h
  refine ⟨Distinct.closing hnodup hf.number, hfits, fun w hw => ?_, fun hp w hw => ?_⟩
  · rw [held_closing] at hw
    obtain ⟨v, hv, rfl⟩ := List.mem_map.mp hw
    exact hgood v hv (hall v hv)
  · rw [held_closing] at hw
    obtain ⟨v, hv, rfl⟩ := List.mem_map.mp hw
    have hclosed := hsetup hp v hv
    rw [hf.closed v hclosed]
    exact hclosed

theorem RingGood.closing (h : s.RingGood) (hf : Closes f) (hgood : ∀ w ∈ s.held, w.Good → (f w).Good)
    (hfragments : ∀ w, (f w).fragments = w.fragments) : (s.closing f).RingGood := by
  refine h.closing_of_fits hf hgood ?_
  have hsame : (s.closing f).usedFragments = s.usedFragments := by
    unfold usedFragments
    rw [held_closing, List.map_map]
    exact congrArg List.sum (List.map_congr_left fun w _ => by rw [Function.comp, hfragments])
  obtain ⟨-, hused, -⟩ := h
  exact hsame ▸ hused

theorem Closes.atNumber_good {f : Window → Window} (h : ∀ w, w.Good → (f w).Good) (n : Nat) (w : Window) (hw : w.Good) :
    (atNumber n f w).Good := by
  unfold atNumber
  split
  · exact h w hw
  · exact hw

theorem atNumber_fragments (h : ∀ w, (f w).fragments = w.fragments) (n : Nat) (w : Window) :
    (atNumber n f w).fragments = w.fragments := by
  unfold atNumber
  split
  · exact h w
  · rfl

theorem RingGood.endCheck (h : s.RingGood) (now n : Nat) : (s.endCheck now n).RingGood := by
  rw [endCheck_eq h.distinct]
  exact h.closing ((closes_endChecked _ _ _).atNumber n)
    (fun w _ => Closes.atNumber_good (fun w hw => hw.endChecked s.readersEnrolled_pairwise _ _) n w)
    (atNumber_fragments (fun w => Window.endChecked_fragments w _ _ _) n)

theorem RingGood.outOfService (h : s.RingGood) (n : StationNo) (r : Station) : (s.outOfService n r).RingGood := by
  have hrecord : (s.withRecordOf n r).RingGood := h
  unfold State.outOfService
  split
  · exact hrecord.closing (closes_without n s.readersEnrolled)
      (fun w _ hw => hw.without s.readersEnrolled_pairwise n) fun w => Window.without_fragments w _ _
  · exact hrecord

theorem RingGood.leaveService (h : s.RingGood) (n : StationNo) (f : Station → Station) : (s.leaveService n f).RingGood := by
  rw [leaveService_eq h.distinct]
  exact h.outOfService n _

theorem RingGood.foldl {α : Type} {op : State → α → State} (h : s.RingGood)
    (hop : ∀ t a, t.RingGood → (op t a).RingGood)
    (l : List α) : (l.foldl op s).RingGood :=
  List.foldlRecOn (motive := State.RingGood) l op h fun t ht a _ => hop t a ht

/-- Windows changed or freed by a sieve that leaves what stays in form. -/
theorem RingGood.sieving (h : s.RingGood) {g : Window → Option Window} (hg : ∀ w v, g w = some v → v.number = w.number ∧
    v.fragments = w.fragments ∧ v.isOpen = w.isOpen ∧ (w.Good → v.Good)) : (s.sieving g).RingGood := by
  obtain ⟨hnodup, hused, hgood, hsetup⟩ := h
  have hmem {v : Window} (hv : v ∈ (s.sieving g).held) : ∃ w ∈ s.held, g w = some v := by
    rw [held_sieving] at hv
    exact List.mem_filterMap.mp hv
  refine ⟨Distinct.sieving hnodup fun w v hv => (hg w v hv).1, ?_, fun v hv => ?_, fun hp v hv => ?_⟩
  · have hle (l : List Window) : ((l.filterMap g).map fun w => w.fragments.length).sum ≤
        (l.map fun w => w.fragments.length).sum := by
      induction l with
      | nil => simp
      | cons w l ih =>
        cases hw : g w with
        | none => simpa [hw] using Nat.le_add_left_of_le ih
        | some v =>
          obtain ⟨-, hfragments, -⟩ := hg w v hw
          simpa [hw, hfragments] using ih
    unfold usedFragments at hused ⊢
    rw [held_sieving]
    exact (hle s.held).trans hused
  · obtain ⟨w, hw, hwv⟩ := hmem hv
    obtain ⟨-, -, -, hkeep⟩ := hg w v hwv
    exact hkeep (hgood w hw)
  · obtain ⟨w, hw, hwv⟩ := hmem hv
    obtain ⟨-, -, hopen, -⟩ := hg w v hwv
    exact hopen.trans (hsetup hp w hw)

theorem RingGood.releasedBy (h : s.RingGood) (m : Slot) : (s.releasedBy m).RingGood := by
  rw [releasedBy_eq_sieving]
  refine h.sieving fun w v hv => ?_
  split at hv
  · cases hv
  · cases hv
    exact ⟨rfl, rfl, rfl, fun hw => hw.notOwed m⟩

/-! ### Reclaims and openings (R104, R117) -/

theorem held_reclaim_sublist (s : State) (n : Nat) : (s.reclaim n).held.Sublist s.held := by
  have hmiss (l : List Slot) (u : State) : (l.foldl (fun t m => t.missWindow m n) u).held = u.held := by
    induction l generalizing u with
    | nil => rfl
    | cons m l ih => exact ih _
  unfold reclaim
  split
  · rw [held_dropWindow, hmiss]
    exact List.filter_sublist
  · exact .refl _

theorem RingGood.reclaim (h : s.RingGood) (n : Nat) : (s.reclaim n).RingGood :=
  h.of_subperm (held_reclaim_sublist s n).subperm (reclaim_step s n).part

theorem held_reclaimFor_sublist (s : State) (need fuel : Nat) : (s.reclaimFor need fuel).held.Sublist s.held := by
  induction fuel generalizing s with
  | zero => exact .refl _
  | succ fuel ih =>
    unfold reclaimFor
    split
    · exact .refl _
    · split
      · exact .refl _
      · exact (ih _).trans (held_reclaim_sublist s _)

theorem RingGood.reclaimFor (h : s.RingGood) (need fuel : Nat) : (s.reclaimFor need fuel).RingGood :=
  h.of_subperm (held_reclaimFor_sublist s need fuel).subperm (reclaimFor_step need fuel s).part

/-- A window put in a FREE slot joins the windows held. -/
theorem held_set_of_free {i : Fin 64} (hi : s.windows[i] = none) (w : Window) :
    (State.held { s with windows := s.windows.set i (some w) }).Perm (w :: s.held) := by
  have hlt : i.val < s.windows.toList.length := by simp
  have hold : s.windows.toList = s.windows.toList.take i ++ none :: s.windows.toList.drop (i + 1) := by
    have hget : s.windows.toList[i.val] = none := by simpa using hi
    have hset := List.set_getElem_self hlt
    rw [hget, List.set_eq_take_append_cons_drop, if_pos hlt] at hset
    exact hset.symm
  have hnew : (s.windows.set i (some w)).toList = s.windows.toList.take i ++ some w :: s.windows.toList.drop (i + 1) := by
    rw [Vector.toList_set, List.set_eq_take_append_cons_drop, if_pos hlt]
  rw [held_eq, held_eq, hnew]
  conv_rhs => rw [hold]
  simp only [List.filterMap_append, List.filterMap_cons, id]
  exact List.perm_middle

theorem openInFreeSlot_of_some {i : Fin 64} (h : s.freeSlot = some i) (n : Nat) :
    s.windows[i] = none ∧ s.openInFreeSlot n = { s with windows := s.windows.set i (some (s.newWindow n)) } := by
  refine ⟨?_, by rw [openInFreeSlot, h]⟩
  exact Option.isNone_iff_eq_none.mp (List.find?_some (p := fun i : Fin 64 => s.windows[i].isNone) h)

theorem openInFreeSlot_of_none (h : s.freeSlot = none) (n : Nat) : s.openInFreeSlot n = s := by
  rw [openInFreeSlot, h]

/-- What an opening can hold: the windows held before, and window n. -/
theorem held_openInFreeSlot (s : State) (n : Nat) :
    (s.openInFreeSlot n).held.Subperm (s.newWindow n :: s.held) := by
  cases h : s.freeSlot with
  | none =>
    rw [openInFreeSlot_of_none h]
    exact (List.sublist_cons_self _ _).subperm
  | some i =>
    obtain ⟨hfree, hopen⟩ := openInFreeSlot_of_some h n
    rw [hopen]
    exact (held_set_of_free hfree _).subperm

theorem RingGood.openInFreeSlot (h : s.RingGood) (hrun : s.part = .run) (hn : ∀ w ∈ s.held, w.number ≠ n) :
    (s.openInFreeSlot n).RingGood := by
  cases hfree : s.freeSlot with
  | none =>
    rw [openInFreeSlot_of_none hfree]
    exact h
  | some i =>
    obtain ⟨hnodup, hused, hgood, -⟩ := h
    obtain ⟨hnone, hopen⟩ := openInFreeSlot_of_some hfree n
    have hperm := held_set_of_free hnone (s.newWindow n)
    rw [hopen]
    refine ⟨(hperm.map _).nodup_iff.mpr (List.nodup_cons.mpr ⟨?_, hnodup⟩), ?_, fun w hw => ?_, fun hp => ?_⟩
    · rintro hm
      obtain ⟨w, hw, hwn⟩ := List.mem_map.mp hm
      exact hn w hw hwn
    · have hsum : State.usedFragments { s with windows := s.windows.set i (some (s.newWindow n)) } = s.usedFragments := by
        refine ((hperm.map _).sum_eq).trans ?_
        simp [newWindow, usedFragments]
      exact hsum ▸ hused
    · rcases List.mem_cons.mp (hperm.mem_iff.mp hw) with rfl | hw
      · exact newWindow_good s n
      · exact hgood w hw
    · rw [hrun] at hp
      cases hp

end State

end Sys2Proof.Machine

/-! PROOFS. Every step keeps the ring of windows in form (R101 to R118). -/

namespace Sys2Proof.Machine

namespace State

variable {s t : State} {m : Slot} {n : Nat}

/-! ### Openings and boundaries (R104, R112) -/

theorem openWindow_cases (s : State) (n : Nat) :
    s.openWindow n = s.openInFreeSlot n ∨ ∃ k, s.openWindow n = (s.reclaim k).openInFreeSlot n := by
  unfold openWindow
  split
  · exact .inr ⟨_, rfl⟩
  · exact .inl rfl

/-- What an opening can hold: the windows held before, and window n. -/
theorem held_openWindow (s : State) (n : Nat) : ∀ w ∈ (s.openWindow n).held, w.number = n ∨ w ∈ s.held := by
  have hfree (u : State) (hu : u.held.Sublist s.held) : ∀ w ∈ (u.openInFreeSlot n).held, w.number = n ∨ w ∈ s.held := by
    intro w hw
    rcases List.mem_cons.mp ((held_openInFreeSlot u n).subset hw) with rfl | hw
    · exact .inl rfl
    · exact .inr (hu.subset hw)
  rcases openWindow_cases s n with h | ⟨k, h⟩
  · rw [h]
    exact hfree s (.refl _)
  · rw [h]
    exact hfree _ (held_reclaim_sublist s k)

theorem RingGood.openWindow (h : s.RingGood) (hrun : s.part = .run) (hn : ∀ w ∈ s.held, w.number ≠ n) :
    (s.openWindow n).RingGood := by
  rcases openWindow_cases s n with ho | ⟨k, ho⟩
  · rw [ho]
    exact h.openInFreeSlot hrun hn
  · rw [ho]
    exact (h.reclaim k).openInFreeSlot ((reclaim_step s k).part.trans hrun) fun w hw =>
      hn w ((held_reclaim_sublist s k).subset hw)

theorem RingGood.windowBoundary (h : s.RingGood) (b : Nat) : (s.windowBoundary b).RingGood := by
  unfold State.windowBoundary
  dsimp only
  split
  next hrun =>
    have hchecked := h.foldl (op := fun t n => t.endCheck s.timebase.us n) (fun t n ht => ht.endCheck _ n)
      (s.openNumbers.filter fun n => decide (n < b))
    have hpart : ((s.openNumbers.filter fun n => decide (n < b)).foldl (fun t n => t.endCheck s.timebase.us n) s).part
        = .run := (WindowStep.foldl (fun t n => endCheck_step t s.timebase.us n) _ s).part.trans hrun
    split
    next hnone => exact hchecked.openWindow hpart (findWindow_none.mp (Option.isNone_iff_eq_none.mp hnone))
    · exact hchecked
  · exact h

/-! ### Placement (R102, R107) -/

/-- What the Window Store makes of a window in which it places a fragment (R107). -/
def placing (s : State) (f : Fragment) : Window → Window :=
  onOpen fun w => checked s.readersEnrolled (w.enter f s.params.tolerance (s.samplesNeeded f.station))

theorem closes_placing (s : State) (f : Fragment) : Closes (s.placing f) :=
  closes_onOpen fun _ => (closes_checked _).number _

theorem placing_good {w : Window} (h : w.Good) (f : Fragment) : (s.placing f w).Good := by
  unfold placing onOpen checked
  dsimp only
  split_ifs
  · exact (h.enter f _ _).shut s.readersEnrolled_pairwise _
  · exact h.enter f _ _
  · exact h

theorem placing_fragments_length_le (f : Fragment) (w : Window) :
    (s.placing f w).fragments.length ≤ w.fragments.length + 1 := by
  unfold placing onOpen checked
  dsimp only
  split_ifs
  · exact (w.enter_fragments_length f s.params.tolerance (s.samplesNeeded f.station)).le
  · exact (w.enter_fragments_length f _ _).le
  · exact Nat.le_succ _

/-- A fragment placed in an OPEN window (R107). -/
theorem placeOne_of_open (h : s.Distinct) (ho : s.holdsOpen n = true) (f : Fragment) (entered dropped : Nat) :
    placeOne (s, entered, dropped) (n, f) = (s.closing (atNumber n (s.placing f)), entered + 1, dropped) := by
  obtain ⟨w, hfound, hopen⟩ := holdsOpen_iff.mp ho
  obtain ⟨hw, rfl⟩ := findWindow_some hfound
  have hone : ∀ x ∈ s.held, x.number = w.number → x.isOpen = true := fun x hx hn => by
    rw [h.eq hx hw hn]
    exact hopen
  unfold placeOne
  dsimp only
  rw [if_pos ho, completenessCheck_modWindow h
    (f := fun x => x.enter f s.params.tolerance (s.samplesNeeded f.station)) (fun _ => rfl) (fun _ => rfl) hone]
  rfl

theorem placeOne_of_not_open (ho : s.holdsOpen n = false) (f : Fragment) (entered dropped : Nat) :
    placeOne (s, entered, dropped) (n, f) = (s.dropFragment f, entered, dropped + 1) := by
  unfold placeOne
  dsimp only
  rw [ho]
  rfl

/-- No window is OPEN that was not so before. -/
theorem holdsOpen_of_open (h : s.Distinct)
    (hopen : ∀ w ∈ t.held, w.isOpen = true → ∃ v ∈ s.held, v.isOpen = true ∧ v.number = w.number)
    (hn : t.holdsOpen n = true) : s.holdsOpen n = true := by
  obtain ⟨w, hfound, ho⟩ := holdsOpen_iff.mp hn
  obtain ⟨hw, rfl⟩ := findWindow_some hfound
  obtain ⟨v, hv, hvo, hvn⟩ := hopen w hw ho
  exact holdsOpen_iff.mpr ⟨v, hvn ▸ findWindow_of_mem h hv, hvo⟩

theorem holdsOpen_of_closing {f : Window → Window} (h : s.Distinct) (hf : Closes f) :
    (s.closing f).holdsOpen n = true → s.holdsOpen n = true :=
  holdsOpen_of_open h fun w hw ho => by
    rw [held_closing] at hw
    obtain ⟨v, hv, rfl⟩ := List.mem_map.mp hw
    exact ⟨v, hv, hf.isOpen ho, (hf.number v).symm⟩

/-- The one window that takes a fragment takes one more record of the pool (R102). -/
theorem usedFragments_closing_atNumber_le {f : Window → Window} (h : s.Distinct)
    (hf : ∀ w, (f w).fragments.length ≤ w.fragments.length + 1) :
    (s.closing (atNumber n f)).usedFragments ≤ s.usedFragments + 1 := by
  have hlist {l : List Window} (hl : (l.map Window.number).Nodup) :
      (l.map fun w => (atNumber n f w).fragments.length).sum ≤ (l.map fun w => w.fragments.length).sum + 1 := by
    induction l with
    | nil => simp
    | cons w l ih =>
      obtain ⟨hw, hl⟩ := List.nodup_cons.mp hl
      rw [List.map_cons, List.map_cons, List.sum_cons, List.sum_cons]
      by_cases hn : w.number = n
      · have hrest : (l.map fun x => (atNumber n f x).fragments.length) = l.map fun x => x.fragments.length :=
          List.map_congr_left fun x hx => by
            rw [atNumber, if_neg fun he => hw (List.mem_map.mpr ⟨x, hx, he.trans hn.symm⟩)]
        have hone := hf w
        rw [hrest, atNumber, if_pos hn]
        omega
      · have hrest := ih hl
        rw [atNumber, if_neg hn]
        omega
  unfold usedFragments
  rw [held_closing, List.map_map]
  exact hlist h

/-- The ring is in form, and the pool has a record for each fragment of a list whose window is OPEN (R107). -/
def FitsIn (list : List (Nat × Fragment)) (s : State) : Prop :=
  s.RingGood ∧ s.usedFragments + list.countP (fun wf => s.holdsOpen wf.1) ≤ 4096

/-- Placing the first fragment of a list leaves room for the rest. -/
theorem FitsIn.placeOne {wf : Nat × Fragment} {list : List (Nat × Fragment)} (h : FitsIn (wf :: list) s)
    (entered dropped : Nat) : FitsIn list (State.placeOne (s, entered, dropped) wf).1 := by
  obtain ⟨hring, hfits⟩ := h
  obtain ⟨n, f⟩ := wf
  rw [List.countP_cons] at hfits
  cases ho : s.holdsOpen n with
  | true =>
    have hcloses := (closes_placing s f).atNumber n
    have hused := usedFragments_closing_atNumber_le (n := n) hring.distinct (placing_fragments_length_le (s := s) f)
    have hcount : list.countP (fun wf => (s.closing (atNumber n (s.placing f))).holdsOpen wf.1)
        ≤ list.countP fun wf => s.holdsOpen wf.1 :=
      List.countP_mono_left fun wf _ => holdsOpen_of_closing hring.distinct hcloses
    have hroom : s.usedFragments + (list.countP (fun wf => s.holdsOpen wf.1) + 1) ≤ 4096 := by simpa [ho] using hfits
    rw [placeOne_of_open hring.distinct ho]
    refine ⟨hring.closing_of_fits hcloses (fun w _ => Closes.atNumber_good (fun w hw => placing_good hw f) n w) ?_, ?_⟩
    · omega
    · dsimp only
      omega
  | false =>
    rw [placeOne_of_not_open ho]
    refine ⟨hring, ?_⟩
    have hroom : s.usedFragments + list.countP (fun wf => s.holdsOpen wf.1) ≤ 4096 := by simpa [ho] using hfits
    exact hroom

theorem FitsIn.foldl {list : List (Nat × Fragment)} (h : FitsIn list s) (entered dropped : Nat) :
    (list.foldl State.placeOne (s, entered, dropped)).1.RingGood := by
  induction list generalizing s entered dropped with
  | nil => exact h.1
  | cons wf list ih => exact ih (h.placeOne entered dropped) _ _

/-- The reclaims of a placement leave no window OPEN that was not so before. -/
theorem fitsIn_of_free (h : s.RingGood) (list : List (Nat × Fragment)) {need : Nat}
    (hneed : need = list.countP fun wf => s.holdsOpen wf.1) (hfree : need ≤ (s.reclaimFor need 64).freeFragments) :
    FitsIn list (s.reclaimFor need 64) := by
  have hring := h.reclaimFor need 64
  have hcount : list.countP (fun wf => (s.reclaimFor need 64).holdsOpen wf.1) ≤ need := by
    rw [hneed]
    exact List.countP_mono_left fun wf _ => holdsOpen_of_open h.distinct fun w hw ho =>
      ⟨w, (held_reclaimFor_sublist s _ 64).subset hw, ho, rfl⟩
  refine ⟨hring, ?_⟩
  obtain ⟨-, hused, -⟩ := hring
  unfold freeFragments poolSize at hfree
  omega

theorem RingGood.placeFragments (h : s.RingGood) (list : List (Nat × Fragment)) : (s.placeFragments list).1.RingGood := by
  unfold State.placeFragments
  dsimp only
  split
  · exact h.reclaimFor _ 64
  next hfree => exact (fitsIn_of_free h list List.countP_eq_length_filter.symm (Nat.le_of_not_lt hfree)).foldl 0 0

/-! ### Acts -/

theorem RingGood.takeBoundary (h : s.RingGood) : s.takeBoundary.RingGood := by
  unfold State.takeBoundary
  split
  next b _ =>
    have happlied : ((s.setTimebase { s.timebase with boundaryDue := none }).stationBoundary).RingGood := h
    exact happlied.windowBoundary b
  · exact h

theorem RingGood.takeExpiry (h : s.RingGood) : s.takeExpiry.RingGood := by
  unfold State.takeExpiry
  split
  next n _ =>
    have hcleared : (s.setTimebase { s.timebase with expiryDue := none }).RingGood := h
    exact hcleared.endCheck _ n
  · exact h

theorem RingGood.takeScan (h : s.RingGood) : s.takeScan.RingGood := by
  unfold State.takeScan
  split
  · have hcleared : (s.setTimebase { s.timebase with scanDue := false }).RingGood := h
    refine hcleared.foldl (fun t n ht => ?_) _
    unfold scanStation
    split
    · exact ht.leaveService n _
    · exact ht
  · exact h

theorem RingGood.takeCycle (h : s.RingGood) : s.takeCycle.RingGood := by
  have hown : s.takeSlewEnd.takeArmedExpiry.takeMissingPulse.RingGood :=
    ((h.of_changes (takeSlewEnd_changes s) (by simp) (by simp)).of_changes (takeArmedExpiry_changes _)
      (by simp [Part.requests]) (by simp [Part.requests])).of_changes (takeMissingPulse_changes _) (by simp) (by simp)
  exact hown.takeBoundary.takeExpiry.takeScan

theorem RingGood.takeBlock (h : s.RingGood) (m : Slot) (rec : IntakeRecord) : (s.takeBlock m rec).RingGood := by
  unfold State.takeBlock
  split
  · exact h.of_changes (refuseBlock_changes s m rec _) (by simp) (by simp)
  next n c _ =>
    have hplaced := h.placeFragments c.fragments
    split
    next s1 hs1 =>
      rw [hs1] at hplaced
      exact hplaced.of_changes (refuseBlock_changes s1 m rec _) (by simp) (by simp)
    next s1 entered dropped hs1 =>
      rw [hs1] at hplaced
      exact hplaced.of_changes (blockOutcome_changes s1 m n rec _ entered dropped) (by simp) (by simp)

theorem RingGood.takeRecord (h : s.RingGood) : s.takeRecord.RingGood := by
  have hpop (m : Slot) : (s.popQueue m).RingGood := h.of_changes (popQueue_changes s m) (by simp) (by simp)
  unfold State.takeRecord
  split
  · exact h
  next m _ =>
    split
    · exact h
    next rec _ _ =>
      have hhead : (s.takeHead m rec).RingGood := by
        unfold takeHead
        split
        · exact h.of_changes (stopMalformed_changes s m rec) (by simp) (by simp)
        · exact (hpop m).takeBlock m rec
        · unfold takeProbe
          split
          · exact (hpop m).of_changes (refuseProbe_changes _ m rec _) (by simp) (by simp)
          · exact hpop m
      exact hhead

theorem RingGood.requestDisableStation (h : s.RingGood) (m : Slot) : (s.requestDisableStation m).RingGood := by
  unfold State.requestDisableStation ownerRequest
  split
  · exact h
  next n _ =>
    split
    · dsimp only
      split
      · exact h
      · exact h.leaveService n _
    · exact h

theorem RingGood.requestWithdraw (h : s.RingGood) (m : Slot) : (s.requestWithdraw m).RingGood := by
  cases he : (s.ctx m).reader.enrolled with
  | true =>
    have hleft : (s.modReader m fun r => { r with enrolled := false }).RingGood := h
    rw [requestWithdraw_of_enrolled h he]
    exact hleft.releasedBy m
  | false =>
    rw [requestWithdraw_of_not_enrolled he]
    exact h

theorem RingGood.requestRelease (h : s.RingGood) (m : Slot) : (s.requestRelease m).RingGood := by
  unfold State.requestRelease
  split
  · exact h
  next w hfound =>
    obtain ⟨hw, -⟩ := findWindow_some hfound
    split
    · exact h
    · split
      · have hreleased : (s.releaseWindow m w.number).1.RingGood := by
          rw [releaseWindow_eq h.distinct hw]
          refine h.sieving fun x v hv => ?_
          unfold sieveAt at hv
          split at hv
          · unfold Window.released at hv
            split at hv
            · cases hv
            · cases hv
              exact ⟨rfl, rfl, rfl, fun hx => hx.notOwed m⟩
          · cases hv
            exact ⟨rfl, rfl, rfl, id⟩
        exact hreleased
      · exact h

theorem foldl_max (l : List Nat) (a : Nat) :
    a ≤ l.foldl max a ∧ (∀ x ∈ l, x ≤ l.foldl max a) ∧ (l.foldl max a = a ∨ l.foldl max a ∈ l) := by
  induction l generalizing a with
  | nil => simp
  | cons b l ih =>
    obtain ⟨hle, hall, hmem⟩ := ih (max a b)
    rw [List.foldl_cons]
    refine ⟨(le_max_left a b).trans hle, fun x hx => ?_, ?_⟩
    · rcases List.mem_cons.mp hx with rfl | hx
      · exact (le_max_right a x).trans hle
      · exact hall x hx
    · rcases hmem with heq | hmem
      · rcases max_choice a b with hab | hab
        · exact .inl (heq.trans hab)
        · exact .inr (by rw [heq, hab]; exact List.mem_cons_self)
      · exact .inr (List.mem_cons_of_mem _ hmem)

/-- START's first window is the larger of the current window and one above the highest held (R118). -/
theorem firstWindow_spec (s : State) :
    s.currentWindow ≤ s.firstWindow ∧ (∀ w ∈ s.held, w.number < s.firstWindow)
      ∧ (s.firstWindow = s.currentWindow ∨ ∃ w ∈ s.held, s.firstWindow = w.number + 1) := by
  obtain ⟨hle, hall, hmem⟩ := foldl_max (s.held.map fun w => w.number + 1) s.currentWindow
  refine ⟨hle, fun w hw => hall _ (List.mem_map_of_mem hw), hmem.imp_right fun h => ?_⟩
  obtain ⟨w, hw, hn⟩ := List.mem_map.mp h
  exact ⟨w, hw, hn.symm⟩

theorem RingGood.requestStart (h : s.RingGood) (m : Slot) : (s.requestStart m).RingGood := by
  unfold State.requestStart
  split
  · exact h
  · split
    · exact h
    · split
      · exact h
      next hp _ _ =>
        obtain ⟨-, habove, -⟩ := s.firstWindow_spec
        have hrun : State.RingGood { s with part := .run } := by
          obtain ⟨hnodup, hused, hgood, -⟩ := h
          exact ⟨hnodup, hused, hgood, nofun⟩
        have hfirst : (State.openWindow { s with part := .run } s.firstWindow).RingGood :=
          hrun.openWindow rfl fun w hw => ne_of_lt (habove w hw)
        refine hfirst.openWindow (openWindow_step _ _).part fun w hw => ?_
        rcases held_openWindow _ _ w hw with hn | hw
        · omega
        · exact ne_of_lt (Nat.lt_succ_of_lt (habove w hw))

/-- HALT leaves no window OPEN (R115, R167). -/
theorem RingGood.requestHalt (h : s.RingGood) (m : Slot) : (s.requestHalt m).RingGood := by
  cases hp : s.part with
  | setup =>
    rw [requestHalt_of_setup hp]
    exact h
  | run =>
    have hflushed : (s.closing (shutIfOpen .flush s.readersEnrolled)).RingGood :=
      h.closing (closes_shutIfOpen _ _) (fun w _ hw => hw.shutIfOpen s.readersEnrolled_pairwise _)
        fun w => w.shutIfOpen_fragments _ _
    obtain ⟨hnodup, hused, hgood, -⟩ := hflushed
    rw [requestHalt_of_run h.distinct hp]
    refine ⟨hnodup, hused, hgood, fun _ w hw => ?_⟩
    have hw : w ∈ (s.closing (shutIfOpen .flush s.readersEnrolled)).held := hw
    rw [held_closing] at hw
    obtain ⟨v, -, rfl⟩ := List.mem_map.mp hw
    unfold shutIfOpen
    split
    · rfl
    next ho => exact Bool.eq_false_of_not_eq_true ho

theorem RingGood.resetContext (h : s.RingGood) (m : Slot) : (s.resetContext m).RingGood := by
  have hcleared : (s.modCtx m Context.resetShares).RingGood := h
  have hreleased : ((s.modCtx m Context.resetShares).releaseAll m).1.RingGood := by
    rw [releaseAll_eq hcleared]
    exact hcleared.releasedBy m
  have hdisabled := hreleased.foldl (fun t n ht => ht.leaveService n Station.contextReset)
    (rangeStations ((s.modCtx m Context.resetShares).releaseAll m).1 m)
  have hranged : (((s.modCtx m Context.resetShares).releaseAll m).1.disableRange m).RingGood := hdisabled
  have hcancelled := hranged.of_changes (cancelSetTime_changes _ m) (by simp) (by simp)
  unfold State.resetContext
  exact hcancelled.of_changes (postResult_changes _ m _ _ _) (by simp) (by simp)

end State

/-- Every act keeps the ring in form. -/
theorem act_ringGood {c : Instr} {s : State} (hc : isFullReset c = false) (hidle : s.IdleFor c) (h : s.RingGood) :
    (act c s).RingGood := by
  have quiet (hw : Part.windows ∉ touches c) (hm : Part.mode ∉ touches c) : (act c s).RingGood :=
    h.of_changes (act_changes hc hidle) hw hm
  cases c with
  | oscillatorCycle => exact h.takeCycle
  | boundaryEvent => exact h.takeBoundary
  | expiryEvent => exact h.takeExpiry
  | scanEvent => exact h.takeScan
  | recordTaking => exact h.takeRecord
  | disableStation m => exact h.requestDisableStation m
  | withdraw m => exact h.requestWithdraw m
  | release m => exact h.requestRelease m
  | start m => exact h.requestStart m
  | halt m => exact h.requestHalt m
  | contextReset m _ => exact h.resetContext m
  | fullReset _ => cases hc
  | _ => exact quiet (by simp [touches, Part.requests]) (by simp [touches, Part.requests])

/-- A full reset frees every window slot (R122). -/
theorem fullReset_held (s : State) (line : ResetLine) : (act (.fullReset line) s).held = [] := by
  have hwindows : (act (.fullReset line) s).windows = Vector.replicate 64 none := by
    cases line <;> rfl
  rw [State.held_eq, hwindows]
  decide

/-- Settles O44: every act keeps the ring in form. -/
theorem ringStaysGood : Obligations.RingStaysGood := by
  intro s t hs hnext
  refine step_keeps State.ringGood_restsOn (fun sent => ?_) (fun s line => ?_) (fun _ _ => act_ringGood) hs hnext
  · cases sent <;> simp [edges, State.ringParts]
  · have hheld := fullReset_held s line
    refine ⟨?_, ?_, ?_, ?_⟩
    · rw [hheld]
      exact .nil
    · rw [State.usedFragments, hheld]
      exact Nat.zero_le _
    · rw [hheld]
      nofun
    · rw [hheld]
      nofun

end Sys2Proof.Machine

/-! PROOFS. Placement as R107 says it: the reclaims of lowest number, then each fragment entered or dropped. -/

namespace Sys2Proof.Machine

namespace State

variable {s t : State} {m : Slot} {n : Nat} {w : Window}

theorem sorted_closedAscending (s : State) : s.closedAscending.Pairwise fun a b => a.number ≤ b.number :=
  List.pairwise_insertionSort (fun a b : Window => a.number ≤ b.number) _

theorem mem_closedAscending : w ∈ s.closedAscending ↔ w ∈ s.held ∧ w.isOpen = false := by
  simp [closedAscending]

theorem closedNumbers_eq (s : State) : s.closedNumbers = s.closedAscending.map Window.number :=
  (List.map_insertionSort (r := fun a b : Window => a.number ≤ b.number) (s := (· ≤ ·)) Window.number _
    fun _ _ _ _ => Iff.rfl).symm

/-- A CLOSED window reclaimed leaves the other CLOSED windows (R117). -/
theorem closedAscending_losing (h : s.Distinct) {rest : List Window} (hs : s.closedAscending = w :: rest) :
    (s.losing w).closedAscending = rest := by
  have hperm : List.Perm s.closedAscending (s.held.filter fun x => !x.isOpen) := List.perm_insertionSort _ _
  have hnumbers : ((w :: rest).map Window.number).Nodup :=
    ((hs ▸ hperm).map _).nodup_iff.mpr (h.sublist ((List.filter_sublist).map _))
  obtain ⟨hw, -⟩ := List.nodup_cons.mp hnumbers
  have hrest : (w :: rest).filter (fun x => !(x.number == w.number)) = rest := by
    rw [List.filter_cons_of_neg (by simp), List.filter_eq_self]
    intro x hx
    simpa using fun he => hw (List.mem_map.mpr ⟨x, hx, he⟩)
  have hleft : List.Perm (s.losing w).closedAscending rest := by
    refine (List.perm_insertionSort _ _).trans ?_
    rw [held_losing, List.filter_comm]
    exact hrest ▸ ((hs ▸ hperm).filter _).symm
  have hsorted := hs ▸ s.sorted_closedAscending
  refine hleft.eq_of_pairwise (fun a b ha hb hab hba => ?_) (sorted_closedAscending _) (List.pairwise_cons.mp hsorted).2
  have hheld {x : Window} (hx : x ∈ rest) : x ∈ s.held :=
    (mem_closedAscending.mp (hs ▸ List.mem_cons_of_mem w hx)).1
  exact h.eq (hheld (hleft.mem_iff.mp ha)) (hheld hb) (Nat.le_antisymm hab hba)

theorem RingGood.reclaim_eq (h : s.RingGood) (hw : w ∈ s.held) : s.reclaim w.number = s.losing w := by
  obtain ⟨-, -, hpending, -⟩ := h.window hw
  exact State.reclaim_eq h.distinct hw (hpending.imp fun h => ne_of_lt h)

/-- The windows that a placement reclaims, and those that it leaves CLOSED. -/
structure Reclaims (s : State) (need : Nat) (u : State) (lost kept : List Window) : Prop where
  split : s.closedAscending = lost ++ kept
  result : u = lost.foldl State.losing s
  minimal : ∀ before after, lost = before ++ after → after ≠ [] → (before.foldl State.losing s).freeFragments < need
  exhausted : u.freeFragments < need → kept = []

/-- The reclaims of a placement take the CLOSED windows of lowest number, no more than needed (R107). -/
theorem exists_reclaims (need fuel : Nat) (h : s.RingGood) (hfuel : s.closedAscending.length ≤ fuel) :
    ∃ lost kept, s.Reclaims need (s.reclaimFor need fuel) lost kept := by
  induction fuel generalizing s with
  | zero =>
    have hnone : s.closedAscending = [] := List.length_eq_zero_iff.mp (Nat.le_zero.mp hfuel)
    exact ⟨[], [], hnone, rfl, by simp, fun _ => rfl⟩
  | succ fuel ih =>
    unfold reclaimFor
    split
    next henough => exact ⟨[], s.closedAscending, rfl, rfl, by simp, fun hfew => absurd henough (Nat.not_le.mpr hfew)⟩
    next hshort =>
      rw [closedNumbers_eq]
      cases hclosed : s.closedAscending with
      | nil => exact ⟨[], [], hclosed, rfl, by simp, fun _ => rfl⟩
      | cons w rest =>
        have hw : w ∈ s.held := (mem_closedAscending.mp (hclosed ▸ List.mem_cons_self)).1
        have hleft := closedAscending_losing h.distinct hclosed
        have hreclaim := h.reclaim_eq hw
        have hring : (s.losing w).RingGood := hreclaim ▸ h.reclaim w.number
        obtain ⟨lost, kept, hsplit, hresult, hminimal, hexhausted⟩ := ih hring (by
          rw [hleft]
          rw [hclosed] at hfuel
          exact Nat.le_of_succ_le_succ hfuel)
        simp only [List.map_cons, hreclaim]
        refine ⟨w :: lost, kept, ?_, hresult, fun before after hlost hafter => ?_, hexhausted⟩
        · rw [hclosed, List.cons_append, ← hsplit, hleft]
        · cases before with
          | nil => exact Nat.lt_of_not_le hshort
          | cons x before =>
            obtain ⟨rfl, hrest⟩ := List.cons.inj hlost
            exact hminimal before after hrest hafter

theorem length_closedAscending_le (s : State) : s.closedAscending.length ≤ 64 := by
  have hheld : s.held.length ≤ 64 := (List.length_filterMap_le _ _).trans (by simp)
  rw [closedAscending, List.length_insertionSort]
  exact (List.length_filter_le _ _).trans hheld

/-- A fragment placed in an OPEN window is entered in it (R107 to R109). -/
theorem closing_placing (h : s.RingGood) (ho : s.holdsOpen n = true) (f : Fragment) :
    s.closing (atNumber n (s.placing f)) = s.closing fun w => if w.number = n then
      w.entered f s.params.tolerance (s.samplesNeeded f.station) s.readersEnrolled else w := by
  obtain ⟨w, hfound, hopen⟩ := holdsOpen_iff.mp ho
  obtain ⟨hw, rfl⟩ := findWindow_some hfound
  refine closing_congr fun x hx => ?_
  unfold atNumber
  split
  next hn =>
    obtain ⟨-, hcovered, -⟩ := h.window hx
    have hxo : x.isOpen = true := by
      rw [h.distinct.eq hx hw hn]
      exact hopen
    have hkept : (x.enter f s.params.tolerance (s.samplesNeeded f.station)).isOpen = true := hxo
    rw [Window.entered_eq hcovered, placing, onOpen, if_pos hxo, checked]
    exact if_congr (by simp [hkept]) rfl rfl
  · rfl

end State

/-- Settles O42: the reclaims by induction on their number, a fragment by `placeOne_of_open` and `entered_eq`. -/
theorem placementReclaimsEntersAndDrops : Obligations.PlacementReclaimsEntersAndDrops := by
  refine ⟨fun s w hring hw _ => hring.reclaim_eq hw, fun s => rfl, Fragment.before_iff, fun s list hring => ?_,
    fun s n f entered dropped hring => ⟨fun ho => ?_, fun ho => ?_⟩⟩
  · obtain ⟨lost, kept, hsplit, hresult, hminimal, hexhausted⟩ :=
      State.exists_reclaims (list.countP fun wf => s.holdsOpen wf.1) 64 hring s.length_closedAscending_le
    refine ⟨lost, kept, hsplit, hminimal, ?_⟩
    rw [← hresult]
    refine ⟨fun hfew => ⟨hexhausted hfew, ?_⟩, fun hfree => ?_⟩
    · unfold State.placeFragments
      rw [← List.countP_eq_length_filter]
      exact if_pos hfew
    · unfold State.placeFragments
      rw [← List.countP_eq_length_filter]
      exact if_neg (Nat.not_lt.mpr hfree)
  · rw [State.placeOne_of_open hring.distinct ho, State.closing_placing hring ho]
    rfl
  · rw [State.placeOne_of_not_open ho]
    rfl

end Sys2Proof.Machine

/-! PROOFS. Windows opened at START and at boundaries (R104, R111, R112, R117, R118, R165). -/

namespace Sys2Proof.Machine

namespace State

variable {s t u : State} {m : Slot} {n : Nat} {w : Window} {i : Fin 64}

theorem newWindow_eq_freshWindow (s : State) (n : Nat) : s.newWindow n = s.freshWindow n := by
  have hexpected : s.expectedNow = s.stationsInService := by
    refine List.filter_congr fun k _ => ?_
    rw [Bool.eq_iff_iff, StationState.inService_iff]
    simp
  rw [newWindow, freshWindow, hexpected]

/-! ### The lowest FREE slot (R104) -/

theorem freeSlot_eq_some (hi : s.windows[i] = none) (hbelow : ∀ j : Fin 64, j < i → s.windows[j] ≠ none) :
    s.freeSlot = some i := by
  cases hfree : s.freeSlot with
  | none => exact absurd (List.find?_eq_none.mp hfree i (List.mem_finRange i)) (by simp [hi])
  | some k =>
    obtain ⟨hk, before, after, hsplit, hnone⟩ := List.find?_eq_some_iff_append.mp hfree
    have hordered := hsplit ▸ List.pairwise_lt_finRange 64
    have hi' : i ∈ before ++ k :: after := hsplit ▸ List.mem_finRange i
    rcases List.mem_append.mp hi' with hbefore | hrest
    · exact absurd (hnone i hbefore) (by simp [hi])
    · rcases List.mem_cons.mp hrest with rfl | hafter
      · rfl
      · have hlt : k < i := (List.pairwise_cons.mp (List.pairwise_append.mp hordered).2.1).1 i hafter
        exact absurd (Option.isNone_iff_eq_none.mp hk) (hbelow k hlt)

theorem freeSlot_eq_none (h : ∀ j : Fin 64, s.windows[j] ≠ none) : s.freeSlot = none :=
  List.find?_eq_none.mpr fun j _ => by simpa using h j

theorem openWindow_of_free (h : s.freeSlot = some i) (n : Nat) :
    s.openWindow n = { s with windows := s.windows.set i (some (s.freshWindow n)) } := by
  have hopen : s.openWindow n = s.openInFreeSlot n := by
    rw [openWindow, h]
  rw [hopen, (openInFreeSlot_of_some h n).2, newWindow_eq_freshWindow]

/-! ### The CLOSED window of lowest number reclaimed for its slot (R117) -/

/-- Two slots do not hold windows of one number (R101). -/
theorem Distinct.slot_eq (h : s.Distinct) {i j : Fin 64} {v w : Window} (hv : s.windows[i] = some v)
    (hw : s.windows[j] = some w) (hn : v.number = w.number) : i = j := by
  have hpairs : s.windows.toList.Pairwise fun a b => ∀ x ∈ a, ∀ y ∈ b, x.number ≠ y.number := by
    have hmap := List.pairwise_map.mp h
    rw [held_eq] at hmap
    exact (List.pairwise_filterMap.mp hmap).imp fun hab x hx y hy => hab x hx y hy
  have hapart {a b : Fin 64} {x y : Window} (hlt : a < b) (hx : s.windows[a] = some x) (hy : s.windows[b] = some y) :
      x.number ≠ y.number := by
    have hab := List.pairwise_iff_getElem.mp hpairs a.val b.val (by simp) (by simp) hlt
    exact hab x (by simpa using hx) y (by simpa using hy)
  rcases lt_trichotomy i j with hlt | heq | hgt
  · exact absurd hn (hapart hlt hv hw)
  · exact heq
  · exact absurd hn.symm (hapart hgt hw hv)

theorem windows_losing (s : State) (w : Window) (j : Fin 64) :
    (s.losing w).windows[j] = s.windows[j].filter fun x => !(x.number == w.number) :=
  vmap_getElem _ s.windows j.val j.isLt

theorem windows_losing_same (hi : s.windows[i] = some w) : (s.losing w).windows[i] = none := by
  rw [windows_losing, hi]
  simp

theorem windows_losing_of_ne (h : s.Distinct) (hi : s.windows[i] = some w) {j : Fin 64} (hj : j ≠ i) :
    (s.losing w).windows[j] = s.windows[j] := by
  rw [windows_losing]
  cases hx : s.windows[j] with
  | none => rfl
  | some x =>
    have hne : x.number ≠ w.number := fun hn => hj (h.slot_eq hx hi hn)
    simp [hne]

theorem mem_held_of_slot (hi : s.windows[i] = some w) : w ∈ s.held := by
  rw [mem_held, ← hi]
  simp

theorem openWindow_of_full (h : s.RingGood) (hfull : ∀ j : Fin 64, s.windows[j] ≠ none) (hi : s.windows[i] = some w)
    (ho : w.isOpen = false) (hlowest : ∀ x ∈ s.held, x.isOpen = false → w.number ≤ x.number) (n : Nat) :
    s.openWindow n = { s.losing w with windows := s.windows.set i (some (s.freshWindow n)) } := by
  have hw := mem_held_of_slot hi
  obtain ⟨rest, hclosed⟩ : ∃ rest, s.closedAscending = w :: rest := by
    have hmem := mem_closedAscending.mpr ⟨hw, ho⟩
    cases hall : s.closedAscending with
    | nil => rw [hall] at hmem; cases hmem
    | cons v rest =>
      obtain ⟨hv, hvo⟩ := mem_closedAscending.mp (hall ▸ List.mem_cons_self (a := v) (l := rest))
      have hsorted := hall ▸ s.sorted_closedAscending
      have hle : v.number ≤ w.number := by
        rcases List.mem_cons.mp (hall ▸ hmem) with rfl | hr
        · exact Nat.le_refl _
        · exact (List.pairwise_cons.mp hsorted).1 w hr
      rw [h.distinct.eq hv hw (Nat.le_antisymm hle (hlowest v hv hvo))]
      exact ⟨rest, rfl⟩
  have hslot : (s.losing w).freeSlot = some i := by
    refine freeSlot_eq_some (windows_losing_same hi) fun j hj => ?_
    rw [windows_losing_of_ne h.distinct hi (ne_of_lt hj)]
    exact hfull j
  have hset : (s.losing w).windows.set i (some (s.freshWindow n)) = s.windows.set i (some (s.freshWindow n)) := by
    refine Vector.ext fun k hk => ?_
    by_cases hki : i.val = k
    · rw [Vector.getElem_set, Vector.getElem_set, if_pos hki, if_pos hki]
    · rw [Vector.getElem_set, Vector.getElem_set, if_neg hki, if_neg hki]
      exact windows_losing_of_ne h.distinct hi (j := ⟨k, hk⟩) fun he => hki (congrArg Fin.val he).symm
  have hopen : s.openWindow n = (s.losing w).openInFreeSlot n := by
    rw [openWindow, freeSlot_eq_none hfull, closedNumbers_eq, hclosed]
    simp only [List.map_cons, h.reclaim_eq hw]
  have hfresh : (s.losing w).freshWindow n = s.freshWindow n := rfl
  rw [hopen, (openInFreeSlot_of_some hslot n).2, newWindow_eq_freshWindow, hfresh, hset]

/-! ### Boundaries (R112) -/

theorem endChecked_eq_afterBoundary (p : Params) (b now : Nat) (readers : List Slot) (w : Window) :
    (if decide (w.number < b) = true then endChecked p now readers w else w) = w.afterBoundary b now p readers := by
  unfold endChecked Window.afterBoundary
  by_cases hb : w.number < b
  · rw [if_pos (by simpa using hb)]
    by_cases ho : w.isOpen = true
    · rw [if_pos ho, if_pos (c := w.isOpen = true ∧ w.number < b) ⟨ho, hb⟩]
      rfl
    · rw [if_neg ho, if_neg fun h => ho h.1]
  · rw [if_neg (by simpa using hb), if_neg fun h => hb h.2]

theorem windowBoundary_of_run (h : s.Distinct) (hrun : s.part = .run) (b : Nat) :
    s.windowBoundary b =
      if ∃ w ∈ s.held, w.number = b + 1 then
        s.closing fun w => w.afterBoundary b s.timebase.us s.params s.readersEnrolled
      else (s.closing fun w => w.afterBoundary b s.timebase.us s.params s.readersEnrolled).openWindow (b + 1) := by
  have hchecks : (s.openNumbers.filter fun n => decide (n < b)).foldl (fun t n => t.endCheck s.timebase.us n) s
      = s.closing fun w => w.afterBoundary b s.timebase.us s.params s.readersEnrolled := by
    rw [foldl_openNumbers (op := fun t n => t.endCheck s.timebase.us n) h
      (closes_endChecked s.params s.timebase.us s.readersEnrolled)
      (fun t n ⟨hparams, hreaders⟩ hd _ => by rw [endCheck_eq hd, hparams, hreaders]) fun n => decide (n < b)]
    exact closing_congr fun w _ => endChecked_eq_afterBoundary _ _ _ _ w
  have hnone : ((s.closing fun w => w.afterBoundary b s.timebase.us s.params s.readersEnrolled).findWindow (b + 1)).isNone
      = true ↔ ¬∃ w ∈ s.held, w.number = b + 1 := by
    have hnumber (w : Window) : (w.afterBoundary b s.timebase.us s.params s.readersEnrolled).number = w.number := by
      rw [← endChecked_eq_afterBoundary]
      split
      · exact (closes_endChecked _ _ _).number w
      · rfl
    rw [Option.isNone_iff_eq_none, findWindow_none, held_closing]
    simp [hnumber]
  unfold windowBoundary
  dsimp only
  rw [if_pos hrun, hchecks]
  by_cases hheld : ∃ w ∈ s.held, w.number = b + 1
  · rw [if_neg fun hn => hnone.mp hn hheld, if_pos hheld]
  · rw [if_pos (hnone.mpr hheld), if_neg hheld]

/-! ### START (R165, R166) -/

theorem missWindow_noteCode (s : State) (m k : Slot) (v : Word) (n : Nat) :
    (s.noteCode m v).missWindow k n = (s.missWindow k n).noteCode m v := by
  rw [missWindow, modReader_noteCode, raise, modAttention_noteCode]
  rfl

theorem dropWindow_noteCode (s : State) (m : Slot) (v : Word) (n : Nat) :
    (s.noteCode m v).dropWindow n = (s.dropWindow n).noteCode m v :=
  modAllCtx_noteCode_of_request
    { s with windows := vmap (fun o : Option Window => o.filter fun w => w.number != n) s.windows } m v
    (fun c => { c with reader := { c.reader with cursor := c.reader.cursor.lose n } }) (fun _ _ => rfl) fun _ => rfl

theorem reclaim_noteCode (s : State) (m : Slot) (v : Word) (n : Nat) :
    (s.noteCode m v).reclaim n = (s.reclaim n).noteCode m v := by
  have hmiss (l : List Slot) (u : State) :
      l.foldl (fun t k => t.missWindow k n) (u.noteCode m v) = (l.foldl (fun t k => t.missWindow k n) u).noteCode m v := by
    induction l generalizing u with
    | nil => rfl
    | cons k l ih => rw [List.foldl_cons, missWindow_noteCode, ih, List.foldl_cons]
  have hfound : (s.noteCode m v).findWindow n = s.findWindow n := rfl
  unfold reclaim
  rw [hfound]
  cases s.findWindow n with
  | none => rfl
  | some w =>
    dsimp only
    rw [hmiss, dropWindow_noteCode]

theorem openInFreeSlot_noteCode (s : State) (m : Slot) (v : Word) (n : Nat) :
    (s.noteCode m v).openInFreeSlot n = (s.openInFreeSlot n).noteCode m v := by
  have hfree : (s.noteCode m v).freeSlot = s.freeSlot := rfl
  unfold openInFreeSlot
  rw [hfree]
  cases s.freeSlot <;> rfl

theorem openWindow_noteCode (s : State) (m : Slot) (v : Word) (n : Nat) :
    (s.noteCode m v).openWindow n = (s.openWindow n).noteCode m v := by
  have hfree : (s.noteCode m v).freeSlot = s.freeSlot := rfl
  have hclosed : (s.noteCode m v).closedNumbers = s.closedNumbers := rfl
  unfold openWindow
  rw [hfree, hclosed, openInFreeSlot_noteCode]
  cases s.freeSlot with
  | some i => rfl
  | none =>
    cases s.closedNumbers with
    | nil => rfl
    | cons k rest =>
      dsimp only
      rw [reclaim_noteCode, openInFreeSlot_noteCode]

theorem exec_start (h : s.Ready m) : exec (.start m) s = .next (((s.noteCode m 15).requestStart m).answer .ok none) :=
  congrArg Host.Outcome.next (onRequest_of_ready h 15 _)

theorem valid_iff {d : Discipline} : d.valid = true ↔ d ∈ ([.locked, .holdover, .slewing] : List Discipline) := by
  cases d <;> decide

theorem requestStart_of_state (h : s.part = .run ∨ s.timebase.discipline.valid = false) :
    s.requestStart m = s.completeBare m .state := by
  unfold requestStart
  by_cases hrun : s.part = .run
  · exact if_pos hrun
  · rw [if_neg hrun, if_pos (by simpa using h.resolve_left hrun)]

theorem requestStart_of_badConfig (hp : s.part = .setup) (hv : s.timebase.discipline.valid = true)
    (hs : s.params.startable = false) : s.requestStart m = s.completeBare m .badConfig := by
  unfold requestStart
  rw [if_neg (by rw [hp]; nofun), if_neg (by simpa using hv), if_pos (by simpa using hs)]

theorem requestStart_of_ok (hp : s.part = .setup) (hv : s.timebase.discipline.valid = true)
    (hs : s.params.startable = true) :
    s.requestStart m = ((State.openWindow { s with part := .run } s.firstWindow).openWindow (s.firstWindow + 1)).complete m
      .ok ⟨loWord s.firstWindow, hiWord s.firstWindow, 0⟩ := by
  unfold requestStart
  rw [if_neg (by rw [hp]; nofun), if_neg (by simpa using hv), if_neg (by simpa using hs)]

theorem startable_iff {p : Params} :
    p.startable = true ↔ (p.holdOpen + p.windowLength - 1) / p.windowLength + 4 ≤ 64 := decide_eq_true_iff

end State

theorem hiWord_eq (n : Nat) : hiWord n = BitVec.ofNat 32 (n / 2 ^ 32) := by
  rw [hiWord, Nat.shiftRight_eq_div_pow]

/-- Settles O45: openings by the slot that is FREE, boundaries by `windowBoundary_of_run`, START by its checks. -/
theorem windowsOpenAtStartAndAtBoundaries : Obligations.WindowsOpenAtStartAndAtBoundaries := by
  refine ⟨fun u n hring => ⟨fun i hi hbelow => ?_, fun i w hfull hi ho hlowest => ?_⟩, fun s b hr hring hrun hb => ?_,
    fun s m hready hring => ⟨fun hs => ?_, fun hp hv hpair => ?_, fun hp hv hpair => ?_⟩⟩
  · exact State.openWindow_of_free (State.freeSlot_eq_some hi hbelow) n
  · exact State.openWindow_of_full hring hfull hi ho hlowest n
  · intro u v
    have hboundary : exec .boundaryEvent s = .next (u.windowBoundary b) := by
      rw [State.exec_boundaryEvent hr, State.takeBoundary_of_some hb]
      rfl
    rw [hboundary, State.windowBoundary_of_run (s := u) hring.distinct hrun]
    exact ⟨fun hheld => congrArg Host.Outcome.next (if_pos hheld), fun hnone =>
      congrArg Host.Outcome.next (if_neg fun ⟨w, hw, hn⟩ => hnone w hw hn)⟩
  · have hstate : s.part = .run ∨ s.timebase.discipline.valid = false :=
      hs.imp_right fun hno => Bool.eq_false_of_not_eq_true fun hv => hno (State.valid_iff.mp hv)
    have hdone := State.requestStart_of_state (s := s.noteCode m 15) (m := m) hstate
    rw [State.exec_start hready, hdone, State.answer_completeBare_noteCode]
    rfl
  · have hdone := State.requestStart_of_badConfig (s := s.noteCode m 15) (m := m) hp (State.valid_iff.mpr hv)
      (Bool.eq_false_of_not_eq_true fun hs => Nat.not_lt.mpr (State.startable_iff.mp hs) hpair)
    rw [State.exec_start hready, hdone, State.answer_completeBare_noteCode]
    rfl
  · obtain ⟨hle, habove, hfirst⟩ := s.firstWindow_spec
    have hcurrent : s.currentWindow
        = (if s.timebase.boundaryDue = none then s.timebase.us else s.timebase.us - 1) / (1000000 * s.params.windowLength) := by
      cases hb : s.timebase.boundaryDue with
      | none => exact State.currentWindow_of_none hb
      | some b => exact State.currentWindow_of_some hb
    rw [hcurrent] at hle hfirst
    refine ⟨s.firstWindow, hle, habove, hfirst, ?_⟩
    have hdone := State.requestStart_of_ok (s := s.noteCode m 15) (m := m) hp (State.valid_iff.mpr hv)
      (State.startable_iff.mpr hpair)
    have hnoted : ({ s.noteCode m 15 with part := .run } : State) = State.noteCode { s with part := .run } m 15 := rfl
    have hsame : (s.noteCode m 15).firstWindow = s.firstWindow := rfl
    rw [State.exec_start hready, hdone, hnoted, hsame, State.openWindow_noteCode, State.openWindow_noteCode,
      State.answer_complete_noteCode, hiWord_eq]
    rfl

end Sys2Proof.Machine

/-! PROOFS. CONTEXT RESET (R170, R171, R172, with R7, R42, R116). -/

namespace Sys2Proof.Machine

namespace State

variable {s t : State} {m : Slot} {n : Nat}

/-- A context reset is the same whether its code has been noted or not: the request slot is reset with the rest (R172). -/
theorem resetContext_noteCode (s : State) (m : Slot) (v : Word) : (s.noteCode m v).resetContext m = s.resetContext m := by
  have hcleared : (s.noteCode m v).modCtx m Context.resetShares = s.modCtx m Context.resetShares := by
    rw [noteCode, modRequest, modCtx_modCtx]
    rfl
  have hstations : (s.noteCode m v).rangeStations m = s.rangeStations m :=
    List.filter_congr fun n _ => owns_noteCode ..
  unfold resetContext
  rw [hcleared, hstations]
  rfl

theorem exec_contextReset (h : s.inReset = false) {way : ContextResetWay}
    (hw : way = .codeWord → (s.ctx m).request.inFlight = false) :
    exec (.contextReset m way) s = .next ((s.resetContext m).answer .ok none) := by
  cases way with
  | codeWord =>
    refine congrArg Host.Outcome.next ((onRequest_of_ready ⟨h, hw rfl⟩ 18 _).trans ?_)
    rw [resetContext_noteCode]
  | resetWord v => exact congrArg Host.Outcome.next (onBus_of_not_inReset h _)

/-- Stations that leave service one after the other are out of service one after the other (R42, R105). -/
theorem foldl_leaveService (h : s.Distinct) (f : Station → Station) (l : List StationNo) :
    l.foldl (fun t n => t.leaveService n f) s = l.foldl (fun u n => u.outOfService n (f (u.station n))) s := by
  induction l generalizing s with
  | nil => rfl
  | cons n l ih =>
    rw [List.foldl_cons, List.foldl_cons, leaveService_eq h]
    exact ih (h.outOfService n _)

/-- Stations out of service leave the Timebase and every request slot alone. -/
theorem foldl_outOfService_keeps (r : State → StationNo → Station) (l : List StationNo) (s : State) :
    (l.foldl (fun u n => u.outOfService n (r u n)) s).timebase = s.timebase
      ∧ ∀ k, ((l.foldl (fun u n => u.outOfService n (r u n)) s).ctx k).request = (s.ctx k).request := by
  induction l generalizing s with
  | nil => exact ⟨rfl, fun _ => rfl⟩
  | cons n l ih =>
    have hstep := outOfService_step s n (r s n)
    obtain ⟨htime, hrequest⟩ := ih (s.outOfService n (r s n))
    exact ⟨htime.trans hstep.timebase, fun k => (hrequest k).trans (hstep.request k)⟩

theorem setTimeInFlight_iff_slot :
    s.setTimeInFlight m = true ↔ s.timebase.inFlight.map SetTimeInFlight.slot = some m := by
  rw [setTimeInFlight_iff, Option.map_eq_some_iff]

/-- A SET TIME of slot m cancelled: FREE, with TIMEBASE raised (R7, R14). -/
theorem cancelSetTime_eq (h : s.timebase.Good) (m : Slot) :
    s.cancelSetTime m =
      if s.timebase.inFlight.map SetTimeInFlight.slot = some m then
        { s.timebaseRaised with timebase := { s.timebase with discipline := .free, inFlight := none } }
      else s := by
  obtain ⟨-, -, -, -, -, -, -, -, -, -, hflight, -⟩ := h
  unfold cancelSetTime
  by_cases hm : s.timebase.inFlight.map SetTimeInFlight.slot = some m
  · have harmed : s.timebase.discipline = .armed := by
      obtain ⟨f, hf, -⟩ := Option.map_eq_some_iff.mp hm
      rw [hf, Option.isSome_some] at hflight
      exact of_decide_eq_true hflight.symm
    rw [if_pos (setTimeInFlight_iff_slot.mpr hm), if_pos hm, withTimebase_of_ne (by rw [harmed]; nofun)]
    rfl
  · rw [if_neg (mt setTimeInFlight_iff_slot.mp hm), if_neg hm]

/-- The result of a context reset, posted in a request slot that has been reset (R172). -/
theorem answer_postResult_of_reset (h : (s.ctx m).request = RequestSlot.reset) (v : Values) :
    (s.postResult m 18 .ok v).answer .ok none = { s with
      bus := ⟨.ok, none⟩
      contexts := s.contexts.set m { s.ctx m with
        request := ⟨false, Vector.replicate 7 0, 0, 0, ⟨18, 0, .ok, v⟩⟩
        attention := { (s.ctx m).attention with pending := (s.ctx m).attention.pending ||| 0x20#6 } } } := by
  have hposted : s.postResult m 18 .ok v = s.setCtx m { s.ctx m with
      request := { (s.ctx m).request with inFlight := false, result := ⟨18, (s.ctx m).request.number, .ok, v⟩ }
      attention := (s.ctx m).attention.raise .requestDone } := by
    unfold postResult raise modAttention modRequest
    rw [modCtx_modCtx]
    rfl
  rw [hposted, h]
  rfl

end State

/-- Settles O58: the releases by `releaseAll_eq`, the stations by `foldl_leaveService`, the SET TIME by
`cancelSetTime_eq`. -/
theorem contextResetReturnsTheContext : Obligations.ContextResetReturnsTheContext := by
  intro s m way hreset ⟨_, htime, _⟩ hring hway cancelled owned enabled owesAlone emptyContext cleared freed released
    disabled unowned disarmed
  have hcleared : s.modCtx m Context.resetShares = cleared := rfl
  have hclearedRing : cleared.RingGood := hring
  have hfreed : cleared.releaseAll m = (released, (s.held.filter owesAlone).length) := State.releaseAll_eq hclearedRing m
  have hreleasedRing : released.RingGood := hclearedRing.releasedBy m
  have hstep : WindowStep cleared released := by
    have hall := State.releaseAll_step cleared m
    rwa [hfreed] at hall
  have hrange (k : Slot) : (released.ctx k).range = (s.ctx k).range := by
    rw [hstep.range, ← hcleared]
    by_cases hk : k = m
    · rw [hk, State.ctx_modCtx_same]
      rfl
    · rw [State.ctx_modCtx_of_ne hk]
  have howned : released.rangeStations m = owned :=
    List.filter_congr fun n _ => by rw [State.owns_eq, State.owns_eq, hrange]
  obtain ⟨hdisabledTime, hdisabledRequest⟩ := State.foldl_outOfService_keeps
    (fun u n => (u.station n).contextReset) owned released
  have hdisabled : released.disableRange m = unowned := by
    unfold State.disableRange
    rw [howned, State.foldl_leaveService hreleasedRing.distinct]
    rfl
  have hunownedTime : unowned.timebase = s.timebase := hdisabledTime.trans hstep.timebase
  have hdisarmed : unowned.cancelSetTime m = disarmed := by
    rw [State.cancelSetTime_eq (hunownedTime ▸ htime), hunownedTime]
  have hrequest : (disarmed.ctx m).request = RequestSlot.reset := by
    have hclearedRequest : (cleared.ctx m).request = RequestSlot.reset := by
      rw [← hcleared, State.ctx_modCtx_same]
      rfl
    have hunowned : (unowned.ctx m).request = (disabled.ctx m).request := by
      have hctx : unowned.ctx m = { disabled.ctx m with range := none } := State.ctx_setCtx_same disabled m _
      rw [hctx]
    have hkept : (disarmed.ctx m).request = (unowned.ctx m).request := by
      rw [← hdisarmed]
      exact State.cancelSetTime_changes unowned m (.request m) (by simp)
    rw [hkept, hunowned]
    exact (hdisabledRequest m).trans ((hstep.request m).trans hclearedRequest)
  have hvalue : flagBit (s.setTimeInFlight m) 0 = if cancelled then 1 else 0 := by
    rw [flagBit_zero]
    exact if_congr State.setTimeInFlight_iff_slot rfl rfl
  rw [State.exec_contextReset hreset hway]
  unfold State.resetContext
  rw [hcleared, hfreed]
  dsimp only
  rw [hdisabled, hdisarmed, State.answer_postResult_of_reset hrequest, hvalue]
  rfl

end Sys2Proof.Machine

/-! PROOFS. The Timebase's pulses, events and requests (R3, R6, R10, R12, R13, R15, R16). -/

namespace Sys2Proof.Machine

/-- Settles O6: the second is the quotient of the time moved on by half a second. -/
theorem pulseErrorIsFromTheNearestSecond : Obligations.PulseErrorIsFromTheNearestSecond := by
  intro t
  obtain ⟨hlow, hhigh⟩ := t.pulseError_bounds
  refine ⟨(secondUnits / 2 + t.fine) / secondUnits, ?_, hlow, hhigh⟩
  have hsplit := Nat.div_add_mod (secondUnits / 2 + t.fine) secondUnits
  have hunits : secondUnits = 1000000 * 2 ^ 32 := rfl
  have hfine : t.fine = 2 ^ 32 * t.us + t.frac := rfl
  unfold Timebase.pulseError
  rw [hunits, hfine] at *
  omega

namespace Timebase

variable {t : Timebase} {p : Params} {e : Int}

theorem slewingPulse_of_inWindow (h : inWindow p e = true) :
    t.slewingPulse p e = { t.disciplineUpdate p e with discipline := .locked, slewRemainder := 0 } := if_pos h

/-- Out of window the trim is driven to its limit against the error, which is not 0 (R13). -/
theorem slewingPulse_of_outOfWindow (h : inWindow p e = false) :
    t.slewingPulse p e = { t with
      phasePart := (if 0 < e then -262144 else 262144) - t.freqPart, slewRemainder := e.natAbs } := by
  have hne : 0 < e.natAbs := Nat.zero_lt_of_lt (inWindow_eq_false.mp h)
  have hdrive : -trimLimit * e.sign = if 0 < e then -262144 else 262144 := by
    split
    next hpos => rw [Int.sign_eq_one_of_pos hpos]; rfl
    next hneg => rw [Int.sign_eq_neg_one_of_neg (by omega)]; rfl
  rw [slewingPulse, if_neg (by rw [h]; decide), hdrive]

theorem missPulse_of_locked (h : t.discipline = .locked ∨ t.discipline = .slewing) :
    t.missPulse = enterHoldover { t with
      missingPulses := raise16 t.missingPulses, deadline := some (t.us + 1000000) } := by
  cases t
  rcases h with rfl | rfl
  · rfl
  · rfl

theorem missPulse_of_holdover (h : t.discipline = .holdover) :
    t.missPulse = { t with
      missingPulses := raise16 t.missingPulses, deadline := some (t.us + 1000000), goodRun := 0 } := by
  cases t
  cases h
  rfl

end Timebase

namespace State

variable {s : State} {m : Slot}

theorem exec_refPulse_of_slewing (hr : s.inReset = false) (hd : s.timebase.discipline = .slewing) :
    exec (.refPulse s.straps.refEdge) s =
      .next (s.withTimebase ((s.timebase.measure s.params).slewingPulse s.params s.timebase.pulseError)) := by
  rw [exec_refPulse hr, takePulse, hd]

end State

/-- Settles O9: the three cases of a slew. -/
theorem slewingPulseAndTheEndOfASlew : Obligations.SlewingPulseAndTheEndOfASlew := by
  intro s hr hd e seen
  refine ⟨fun hin => ?_, fun hout => ?_, fun hended => ?_⟩
  · have hw : inWindow s.params e = true := inWindow_iff.mpr hin
    rw [State.exec_refPulse_of_slewing hr hd, Timebase.slewingPulse_of_inWindow hw, Timebase.measure_of_inWindow hw,
      State.withTimebase_of_ne (by rw [hd]; nofun)]
    rfl
  · have hw : inWindow s.params e = false := inWindow_eq_false.mpr hout
    rw [State.exec_refPulse_of_slewing hr hd, Timebase.slewingPulse_of_outOfWindow hw, Timebase.measure_of_outOfWindow hw]
    exact congrArg Host.Outcome.next (State.withTimebase_of_eq rfl)
  · have hslew : s.timebase.slewEnded = true := by
      simpa [Timebase.slewEnded, hd] using hended
    rw [State.exec_slewRemainderEnd hr, State.takeSlewEnd, if_pos hslew]
    rfl

theorem State.takeMissingPulse_of_due {s : State} {d : Nat} (hd : s.timebase.deadline = some d) (hu : d ≤ s.timebase.us)
    (hv : s.timebase.discipline.valid = true) : s.takeMissingPulse = s.withTimebase s.timebase.missPulse := by
  unfold State.takeMissingPulse
  rw [hd]
  exact if_pos ⟨hv, hu⟩

/-- Settles O11: the expiry and the missing pulse, each at its moment. -/
theorem armedExpiryAndMissingPulse : Obligations.ArmedExpiryAndMissingPulse := by
  refine ⟨fun s f hr hd hf hdue => ?_, fun s d hr hdeadline hdue => ⟨fun hlocked => ?_, fun hholdover => ?_⟩⟩
  · have hexpiry : s.takeArmedExpiry = (s.withTimebase s.timebase.disarm).completeBare f.slot .timeout := by
      unfold State.takeArmedExpiry
      rw [hd, hf]
      exact if_pos hdue
    rw [State.exec_armedExpiry hr, hexpiry, State.withTimebase_of_ne (by rw [hd]; nofun)]
    exact congrArg Host.Outcome.next (State.complete_eq_finished _ _ _ _)
  · have hv : s.timebase.discipline.valid = true := by
      rcases hlocked with hd | hd <;> rw [hd] <;> rfl
    have hmissed : s.timebase.missPulse = Timebase.enterHoldover { s.timebase with
        missingPulses := raise16 s.timebase.missingPulses, deadline := some (s.timebase.us + 1000000) } :=
      Timebase.missPulse_of_locked hlocked
    have hleft : Discipline.holdover ≠ s.timebase.discipline := by
      rcases hlocked with hd | hd <;> rw [hd] <;> nofun
    rw [State.exec_missingPulseEvent hr, State.takeMissingPulse_of_due hdeadline hdue hv, hmissed,
      State.withTimebase_of_ne (t := Timebase.enterHoldover _) hleft]
    rfl
  · have hv : s.timebase.discipline.valid = true := by
      rw [hholdover]
      rfl
    have hmissed : s.timebase.missPulse = { s.timebase with
        missingPulses := raise16 s.timebase.missingPulses, deadline := some (s.timebase.us + 1000000), goodRun := 0 } :=
      Timebase.missPulse_of_holdover hholdover
    rw [State.exec_missingPulseEvent hr, State.takeMissingPulse_of_due hdeadline hdue hv, hmissed]
    exact congrArg Host.Outcome.next (State.withTimebase_of_eq rfl)

namespace State

variable {s : State} {m : Slot}

theorem exec_reacquire (h : s.Ready m) :
    exec (.reacquire m) s = .next (((s.noteCode m 2).requestReacquire m).answer .ok none) :=
  congrArg Host.Outcome.next (onRequest_of_ready h 2 _)

end State

/-- Settles O17: HOLDOVER is left for SLEWING, every other state stands. -/
theorem reacquireLeavesHoldoverAlone : Obligations.ReacquireLeavesHoldoverAlone := by
  intro s m hready
  refine ⟨fun hd => ?_, fun hd => ?_⟩
  · have hdone : (s.noteCode m 2).requestReacquire m =
        ((s.noteCode m 2).withTimebase { s.timebase with discipline := .slewing, goodRun := 0, badRun := 0 }).completeBare m
          .ok := if_pos hd
    have hnoted (t : Timebase) : ({ (s.timebaseRaised).noteCode m 2 with timebase := t } : State)
        = State.noteCode { s.timebaseRaised with timebase := t } m 2 := rfl
    rw [State.exec_reacquire hready, hdone, State.withTimebase_of_ne (by rw [State.noteCode_timebase, hd]; nofun),
      State.timebaseRaised_noteCode, hnoted, State.answer_completeBare_noteCode]
    rfl
  · have hdone : (s.noteCode m 2).requestReacquire m = (s.noteCode m 2).completeBare m .state := if_neg hd
    rw [State.exec_reacquire hready, hdone, State.answer_completeBare_noteCode]
    rfl

theorem hubTerm_lt (t : Timebase) (growth : Nat) : hubTerm t growth < 2 ^ 24 := by
  have hmin (n : Nat) : min maxUncertainty n < 2 ^ 24 := (Nat.min_le_left _ _).trans_lt (by decide)
  unfold hubTerm
  dsimp only
  split
  · decide
  · decide
  · exact hmin _
  · exact hmin _
  · exact hmin _

theorem State.exec_readTime {s : State} {m : Slot} (h : s.Ready m) :
    exec (.readTime m) s = .next (((s.noteCode m 3).requestReadTime m).answer .ok none) :=
  congrArg Host.Outcome.next (onRequest_of_ready h 3 _)

/-- Settles O18: the hub term by cases of the discipline state. -/
theorem readTimeReportsOneMoment : Obligations.ReadTimeReportsOneMoment := by
  intro s m hready e seconds hub code
  have hhub : hubTerm s.timebase s.params.hubGrowth = hub := by
    unfold hubTerm hub
    cases s.timebase.discipline <;> rfl
  have hcode : s.timebase.discipline.code = code := by
    unfold code
    cases s.timebase.discipline <;> rfl
  refine ⟨?_, hhub⟩
  have hword : atBit s.timebase.discipline.code 24 ||| atBit (hubTerm s.timebase s.params.hubGrowth) 0
      = BitVec.ofNat 32 (2 ^ 24 * code + hub) := by
    rw [atBit_or_low (hubTerm_lt _ _), hcode, hhub]
  have hdone : (s.noteCode m 3).requestReadTime m = (s.noteCode m 3).complete m .ok
      ⟨loWord s.timebase.us, hiWord s.timebase.us,
        atBit s.timebase.discipline.code 24 ||| atBit (hubTerm s.timebase s.params.hubGrowth) 0⟩ := rfl
  rw [State.exec_readTime hready, hdone, State.answer_complete_noteCode, hiWord_eq, hword]
  rfl

end Sys2Proof.Machine

/-! PROOFS. The state after reset, and the requests and events of stations, captures and intakes that stand by themselves
(R27, R41, R44, R79 to R82, R86). -/

namespace Sys2Proof.Machine

theorem State.reset_ctx (m : Slot) : State.reset.ctx m = Context.reset := by
  simp [State.reset, State.fullResetValues, State.ctx]

theorem State.reset_station_eq (n : StationNo) : State.reset.station n = Station.reset := by
  simp [State.reset, State.fullResetValues, State.station]

theorem State.reset_held : State.reset.held = [] := by
  rw [State.held_eq, State.reset, State.fullResetValues]
  decide

/-- Settles O15: every context and every record at its reset values, and no window held. -/
theorem everyInvariantHoldsAtReset : Obligations.EveryInvariantHoldsAtReset := by
  refine ⟨⟨by decide, by decide, fun m => ?_⟩, fun m => ?_, fun m => ?_, ?_, ?_, fun n => ?_⟩
  · rw [State.reset_ctx]
    rfl
  · rw [State.reset_ctx]
    exact ⟨by decide, by decide, by decide⟩
  · rw [State.reset_ctx]
    decide
  · unfold State.RingGood State.usedFragments
    rw [State.reset_held]
    exact ⟨.nil, Nat.zero_le _, nofun, nofun⟩
  · have howns (m : Slot) (n : StationNo) : State.reset.owns m n = false := by
      rw [State.owns_eq, State.reset_ctx]
      rfl
    refine ⟨fun m => ?_, fun m k n hm => ?_, fun n hn => ?_⟩
    · rw [State.reset_ctx]
      nofun
    · rw [howns] at hm
      cases hm
    · rw [State.reset_station_eq] at hn
      exact absurd rfl hn
  · rw [State.reset_station_eq]
    exact Station.reset_good

/-! ### ENABLE STATION and CLEAR COUNTERS (R27, R41) -/

namespace State

variable {s : State} {m : Slot} {n : StationNo}

theorem exec_enableStation (h : s.Ready m) :
    exec (.enableStation m) s = .next (((s.noteCode m 5).requestEnableStation m).answer .ok none) :=
  congrArg Host.Outcome.next (onRequest_of_ready h 5 _)

theorem exec_clearCounters (h : s.Ready m) :
    exec (.clearCounters m) s = .next (((s.noteCode m 8).requestClearCounters m).answer .ok none) :=
  congrArg Host.Outcome.next (onRequest_of_ready h 8 _)

theorem requestEnableStation_of_owner (hn : s.argNat m 0 = n.val) (ho : s.owns m n = true) :
    s.requestEnableStation m =
      if (s.station n).state = .disabled then
        (s.modStation n fun r => { r with state := r.serviceState, lastArrival := s.timebase.us }).completeBare m .ok
      else s.completeBare m .state := ownerRequest_of_owner hn ho _

theorem requestClearCounters_of_owner (hn : s.argNat m 0 = n.val) (ho : s.owns m n = true) :
    s.requestClearCounters m =
      (s.modStation n fun r => { r with counters := StationCounters.zero }).completeBare m .ok := ownerRequest_of_owner hn ho _

end State

/-- Settles O21: the owner's requests on one record. -/
theorem enableStationAndClearCounters : Obligations.EnableStationAndClearCounters := by
  intro s m n hready hn ho
  have hnoted (v : Word) : (s.noteCode m v).argNat m 0 = n.val := (State.argNat_noteCode ..).trans hn
  have howned (v : Word) : (s.noteCode m v).owns m n = true := (State.owns_noteCode ..).trans ho
  refine ⟨fun hs => ?_, fun hs => ?_, ?_⟩
  · have hdone := State.requestEnableStation_of_owner (hnoted 5) (howned 5)
    rw [State.noteCode_station, if_neg hs] at hdone
    rw [State.exec_enableStation hready, hdone, State.answer_completeBare_noteCode]
    rfl
  · have hdone := State.requestEnableStation_of_owner (hnoted 5) (howned 5)
    rw [State.noteCode_station, if_pos hs, State.modStation_noteCode] at hdone
    rw [State.exec_enableStation hready, hdone, State.answer_completeBare_noteCode]
    simp only [State.modStation, Station.serviceState_eq]
    rfl
  · rw [State.exec_clearCounters hready, State.requestClearCounters_of_owner (hnoted 8) (howned 8),
      State.modStation_noteCode, State.answer_completeBare_noteCode]
    rfl

/-! ### Captures (R44) -/

/-- Settles O28: a selected edge is an entry while network time is valid. -/
theorem capturePulseMakesAnEntry : Obligations.CapturePulseMakesAnEntry := by
  intro s m hr c
  have hselected : exec (.capturePulse m s.straps.captureEdge) s = .next (s.takeCapture m) := by
    refine congrArg Host.Outcome.next ((onEvent_of_not_inReset hr _).trans ?_)
    exact if_pos rfl
  refine ⟨fun edge hedge => ?_, fun hd => ?_, fun hd => ?_⟩
  · refine congrArg Host.Outcome.next ((onEvent_of_not_inReset hr _).trans ?_)
    exact if_neg hedge
  · have hv : s.timebase.discipline.valid = false := Discipline.valid_eq_false.mpr (by simpa using hd)
    rw [hselected, State.takeCapture, if_neg (by rw [hv]; decide)]
  · rw [hselected, State.takeCapture, if_pos (State.valid_iff.mpr hd)]
    rfl

/-! ### Commits, SET THRESHOLD and INTAKE RESET (R79, R82, R86) -/

namespace State

variable {s : State} {m : Slot}

theorem exec_commit (h : s.inReset = false) (v : Word) : exec (.commit m v) s = .next (s.commitWord m v) :=
  congrArg Host.Outcome.next (onBus_of_not_inReset h _)

theorem exec_setThreshold (h : s.Ready m) :
    exec (.setThreshold m) s = .next (((s.noteCode m 10).requestSetThreshold m).answer .ok none) :=
  congrArg Host.Outcome.next (onRequest_of_ready h 10 _)

theorem exec_intakeReset (h : s.Ready m) :
    exec (.intakeReset m) s = .next (((s.noteCode m 9).requestIntakeReset m).answer .ok none) :=
  congrArg Host.Outcome.next (onRequest_of_ready h 9 _)

theorem resetIntakeQueue_noteCode (s : State) (m : Slot) (v : Word) :
    (s.noteCode m v).resetIntakeQueue m = (s.resetIntakeQueue m).noteCode m v := by
  rw [resetIntakeQueue_eq, resetIntakeQueue_eq]
  exact modPart_noteCode s m m v _ (fun _ _ => rfl) fun _ => rfl

end State

/-- Settles O35: the two cases of a commit. -/
theorem commitJoinsTheQueue : Obligations.CommitJoinsTheQueue := by
  intro s m v hr i
  refine ⟨fun hroom => ?_, fun hfull => ?_⟩
  · have hlength : (i.queue ++ [i.staging.set 7 v]).length = i.queue.length + 1 := by simp
    rw [State.exec_commit hr, State.commitWord, if_pos hroom, ← hlength]
    rfl
  · rw [State.exec_commit hr, State.commitWord, if_neg (Nat.not_lt.mpr hfull)]
    rfl

/-- Settles O40: SET THRESHOLD by its check, INTAKE RESET by `resetIntakeQueue_eq`. -/
theorem thresholdAndIntakeReset : Obligations.ThresholdAndIntakeReset := by
  intro s m hready c count
  have hcount : (s.noteCode m 10).argNat m 0 = count := State.argNat_noteCode ..
  refine ⟨fun hno => ?_, fun hyes => ?_, ?_⟩
  · have hdone : (s.noteCode m 10).requestSetThreshold m = (s.noteCode m 10).completeBare m .badArg :=
      if_neg (by rw [hcount, List.contains_iff_mem]; exact hno)
    rw [State.exec_setThreshold hready, hdone, State.answer_completeBare_noteCode]
    rfl
  · have hdone : (s.noteCode m 10).requestSetThreshold m =
        ((s.noteCode m 10).modIntake m fun i => Intake.holdAtThreshold { i with threshold := count }).completeBare m .ok := by
      rw [← hcount]
      exact if_pos (by rw [hcount, List.contains_iff_mem]; exact hyes)
    rw [State.exec_setThreshold hready, hdone, State.modIntake_noteCode, State.answer_completeBare_noteCode]
    rfl
  · rw [State.exec_intakeReset hready, State.requestIntakeReset, State.resetIntakeQueue_noteCode,
      State.answer_completeBare_noteCode, State.resetIntakeQueue_eq]
    rfl

end Sys2Proof.Machine

/-! PROOFS. SET RANGE (R24, R25). -/

namespace Sys2Proof.Machine

theorem Range.covers_iff {r : Range} {n : Nat} : r.covers n = true ↔ r.base ≤ n ∧ n < r.base + r.size := by
  simp [Range.covers]

/-- Two ranges that meet share a station, if both hold some and end by 128 (R24). -/
theorem Range.exists_of_meets {a b : Range} (h : a.meets b = true) (ha : 0 < a.size ∧ a.base + a.size ≤ 128)
    (hb : 0 < b.size ∧ b.base + b.size ≤ 128) : ∃ n : StationNo, a.covers n = true ∧ b.covers n = true := by
  have hmax : max a.base b.base < 128 := by omega
  simp only [Range.meets, Bool.and_eq_true, decide_eq_true_eq] at h
  refine ⟨⟨max a.base b.base, hmax⟩, Range.covers_iff.mpr ?_, Range.covers_iff.mpr ?_⟩
  · dsimp only
    omega
  · dsimp only
    omega

theorem Range.Good.bounds {r : Range} (h : r.Good) : 0 < r.size ∧ r.base + r.size ≤ 128 := by
  obtain ⟨hsize, -, hend⟩ := h
  refine ⟨Nat.pos_of_ne_zero fun hzero => ?_, hend⟩
  rw [hzero] at hsize
  revert hsize
  decide

/-! ### The range asked for -/

theorem askedRange_zero : askedRange 0 0 = some none := rfl

theorem askedRange_of_good {base size : Nat} (h : Range.Good ⟨base, size⟩) :
    askedRange base size = some (some ⟨base, size⟩) := by
  obtain ⟨hpos, -⟩ := h.bounds
  obtain ⟨hsize, hbase, hend⟩ := h
  rw [askedRange, if_neg fun hzero => hpos.ne' hzero.1, if_pos ⟨mem_rangeSizes.mpr hsize, hbase, hend⟩]

theorem askedRange_of_bad {base size : Nat} (hzero : ¬(size = 0 ∧ base = 0)) (h : ¬Range.Good ⟨base, size⟩) :
    askedRange base size = none := by
  rw [askedRange, if_neg hzero, if_neg]
  rintro ⟨hsize, hbase, hend⟩
  exact h ⟨mem_rangeSizes.mp hsize, hbase, hend⟩

namespace State

variable {s : State} {m : Slot} {n : StationNo} {r : Option Range}

theorem owns_iff {k : Slot} :
    s.owns k n = true ↔ ∃ r : Range, (s.ctx k).range = some r ∧ r.base ≤ n.val ∧ n.val < r.base + r.size := by
  rw [owns_eq, rangeCovers, Option.any_eq_true]
  simp only [Range.covers_iff]

/-! ### The checks of SET RANGE (R25) -/

theorem rangeOverlaps_iff (h : s.RangesGood) {a : Range} (ha : a.Good) :
    s.rangeOverlaps m (some a) = true ↔
      ∃ k : Slot, k ≠ m ∧ ∃ n : StationNo, s.owns k n = true ∧ a.covers n = true := by
  constructor
  · intro hover
    obtain ⟨k, -, hk⟩ := List.any_eq_true.mp hover
    rw [Bool.and_eq_true, decide_eq_true_eq, Option.any_some, Option.any_eq_true] at hk
    obtain ⟨hne, b, hb, hmeets⟩ := hk
    obtain ⟨hgood, -⟩ := h
    obtain ⟨n, han, hbn⟩ := Range.exists_of_meets hmeets ha.bounds (hgood k b hb).bounds
    refine ⟨k, hne, n, ?_, han⟩
    rw [owns_eq, hb]
    exact hbn
  · rintro ⟨k, hne, n, howned, han⟩
    by_contra hno
    have hout := rangeCovers_of_not_overlaps (Bool.eq_false_of_not_eq_true hno) hne howned
    exact absurd (han.symm.trans hout) (by decide)

theorem rangeStrands_iff :
    s.rangeStrands m r = true ↔
      ∃ n : StationNo, s.owns m n = true ∧ (s.station n).state ≠ .disabled ∧ rangeCovers r n = false := by
  simp only [rangeStrands, List.any_eq_true, mem_rangeStations, Bool.and_eq_true, decide_eq_true_eq,
    Bool.not_eq_true']

@[simp] theorem rangeOverlaps_noteCode (v : Word) : (s.noteCode m v).rangeOverlaps m r = s.rangeOverlaps m r := by
  simp only [rangeOverlaps, range_noteCode]

@[simp] theorem rangeStrands_noteCode (v : Word) : (s.noteCode m v).rangeStrands m r = s.rangeStrands m r := by
  rw [Bool.eq_iff_iff, rangeStrands_iff, rangeStrands_iff]
  simp only [owns_noteCode, noteCode_station]

section

variable (hr : askedRange (s.argNat m 0) (s.argNat m 1) = some r)

include hr

theorem requestSetRange_of_overlap (h : s.rangeOverlaps m r = true) : s.requestSetRange m = s.completeBare m .overlap := by
  rw [requestSetRange, hr]
  exact if_pos h

theorem requestSetRange_of_stranded (h : s.rangeOverlaps m r = false) (hb : s.rangeStrands m r = true) :
    s.requestSetRange m = s.completeBare m .busy := by
  rw [requestSetRange, hr]
  dsimp only
  rw [h, hb]
  rfl

theorem requestSetRange_of_ok (h : s.rangeOverlaps m r = false) (hb : s.rangeStrands m r = false) :
    s.requestSetRange m = (s.setRangeEntry m r).complete m .ok
      (r.elim Values.zero fun x => ⟨loWord x.base, loWord x.size, 1⟩) := by
  rw [requestSetRange, hr]
  dsimp only
  rw [h, hb]
  cases r <;> rfl

end

theorem exec_setRange (h : s.Ready m) :
    exec (.setRange m) s = .next (((s.noteCode m 4).requestSetRange m).answer .ok none) :=
  congrArg Host.Outcome.next (onRequest_of_ready h 4 _)

end State

/-- Settles O19: the checks in order, each by what it tests of the stations. -/
theorem setRangeChecksInOrder : Obligations.SetRangeChecksInOrder := by
  intro s m hready hgood base size aligned inNew overlap stranded
  have hasked : askedRange ((s.noteCode m 4).argNat m 0) ((s.noteCode m 4).argNat m 1) = askedRange base size := by
    rw [State.argNat_noteCode, State.argNat_noteCode]
    rfl
  have hoverlap (ha : aligned) : s.rangeOverlaps m (some ⟨base, size⟩) = true ↔ overlap :=
    (State.rangeOverlaps_iff hgood ha).trans <| exists_congr fun k => and_congr_right fun _ => exists_congr fun n =>
      and_congr_right fun _ => Range.covers_iff
  have hstranded : s.rangeStrands m (some ⟨base, size⟩) = true ↔ stranded := by
    refine State.rangeStrands_iff.trans <| exists_congr fun n => and_congr_right fun _ => and_congr_right fun _ => ?_
    rw [← Bool.not_eq_true]
    exact not_congr Range.covers_iff
  have hnone (hzero : size = 0 ∧ base = 0) : s.rangeStrands m none = true ↔ stranded := by
    refine State.rangeStrands_iff.trans <| exists_congr fun n => and_congr_right fun _ => and_congr_right fun _ => ?_
    have hout : ¬inNew n := by
      rintro ⟨hlow, hhigh⟩
      omega
    exact iff_of_true rfl hout
  refine ⟨fun hzero ha => ?_, fun ha ho => ?_, fun ha ho hs => ?_, fun ha ho hs => ?_, fun hsize hbase hs => ?_,
    fun k n => State.owns_iff⟩
  · rw [State.exec_setRange hready, State.requestSetRange, hasked, askedRange_of_bad hzero ha]
    dsimp only
    rw [State.answer_completeBare_noteCode]
    rfl
  · rw [State.exec_setRange hready, State.requestSetRange_of_overlap (hasked.trans (askedRange_of_good ha))
      ((State.rangeOverlaps_noteCode 4).trans ((hoverlap ha).mpr ho)), State.answer_completeBare_noteCode]
    rfl
  · obtain ⟨r, hr, hno, hbusy⟩ : ∃ r, askedRange base size = some r ∧ s.rangeOverlaps m r = false
        ∧ s.rangeStrands m r = true := by
      rcases ha with hzero | ha
      · refine ⟨none, ?_, ?_, (hnone hzero).mpr hs⟩
        · rw [hzero.1, hzero.2, askedRange_zero]
        · simp [State.rangeOverlaps]
      · exact ⟨some ⟨base, size⟩, askedRange_of_good ha,
          Bool.eq_false_of_not_eq_true (mt (hoverlap ha).mp ho), hstranded.mpr hs⟩
    rw [State.exec_setRange hready, State.requestSetRange_of_stranded (hasked.trans hr)
      ((State.rangeOverlaps_noteCode 4).trans hno) ((State.rangeStrands_noteCode 4).trans hbusy),
      State.answer_completeBare_noteCode]
    rfl
  · have hno := Bool.eq_false_of_not_eq_true (mt (hoverlap ha).mp ho)
    have hfree := Bool.eq_false_of_not_eq_true (mt hstranded.mp hs)
    have hlow : loWord base = s.arg m 0 := BitVec.ofNat_toNat ..
    have hhigh : loWord size = s.arg m 1 := BitVec.ofNat_toNat ..
    rw [State.exec_setRange hready, State.requestSetRange_of_ok (hasked.trans (askedRange_of_good ha))
      ((State.rangeOverlaps_noteCode 4).trans hno) ((State.rangeStrands_noteCode 4).trans hfree),
      State.setRangeEntry_noteCode, State.answer_complete_noteCode, Option.elim_some, hlow, hhigh]
    rfl
  · have hfree := Bool.eq_false_of_not_eq_true (mt (hnone ⟨hsize, hbase⟩).mp hs)
    have hr : askedRange base size = some none := by
      rw [hsize, hbase, askedRange_zero]
    rw [State.exec_setRange hready, State.requestSetRange_of_ok (hasked.trans hr)
      (by simp [State.rangeOverlaps]) ((State.rangeStrands_noteCode 4).trans hfree),
      State.setRangeEntry_noteCode, State.answer_complete_noteCode]
    rfl

end Sys2Proof.Machine

/-! PROOFS. The notice port, the flags and the POLL read (R126, R127, R140 to R145). -/

namespace Sys2Proof.Machine

namespace State

variable {s : State} {m : Slot}

theorem exec_noticePop (h : s.inReset = false) : exec (.noticePop m) s = .next (answerRead (s.popNotice m)) :=
  congrArg Host.Outcome.next (onBus_of_not_inReset h _)

theorem exec_overflowClear (h : s.inReset = false) (v : Word) :
    exec (.overflowClear m v) s = .next ((s.clearOverflow m).answer .ok none) :=
  congrArg Host.Outcome.next (onBus_of_not_inReset h _)

theorem exec_flagsWordWrite (h : s.inReset = false) (v : Word) :
    exec (.flagsWordWrite m v) s = .next ((s.writeFlags m v).answer .ok none) :=
  congrArg Host.Outcome.next (onBus_of_not_inReset h _)

theorem exec_enableMaskWrite (h : s.inReset = false) (v : Word) :
    exec (.enableMaskWrite m v) s = .next ((s.writeEnables m v).answer .ok none) :=
  congrArg Host.Outcome.next (onBus_of_not_inReset h _)

theorem exec_pollRead (h : s.inReset = false) :
    exec (.pollRead m) s =
      .next (answerRead (s.modAttention m Attention.polled, (s.ctx m).attention.pollWord)) :=
  congrArg Host.Outcome.next (onBus_of_not_inReset h _)

/-- A read of the pop word with notices queued (R126, R140). -/
theorem popNotice_of_cons {nt : Notice} {rest : List Notice} (h : (s.ctx m).reader.notices = nt :: rest) :
    s.popNotice m = (s.setCtx m { s.ctx m with
      reader := { (s.ctx m).reader with notices := rest, latch := some nt }
      attention := if rest = [] then (s.ctx m).attention.clear .closed else (s.ctx m).attention },
      popWord nt rest.length (s.ctx m).reader.overflow) := by
  unfold popNotice
  dsimp only
  rw [h]
  cases rest with
  | nil =>
    dsimp only
    rw [if_pos List.isEmpty_nil, modReader, modAttention, modCtx_modCtx]
    rfl
  | cons _ _ => rfl

theorem popNotice_of_nil (h : (s.ctx m).reader.notices = []) :
    s.popNotice m =
      (s.modReader m fun r => { r with latch := none }, emptyMarker (s.ctx m).reader.overflow) := by
  unfold popNotice
  dsimp only
  rw [h]

end State

theorem popWord_eq (nt : Notice) (left : Nat) (overflow : Bool) :
    popWord nt left overflow = BitVec.ofNat 32 (1 <<< 31 ||| overflow.toNat <<< 30 ||| nt.reason.code <<< 28
      ||| left <<< 24 ||| nt.expected <<< 8 ||| nt.covered) := by
  simp only [popWord, flagBit, atBit, BitVec.ofNat_or, Nat.shiftLeft_zero, Bool.toNat_true]

/-- Settles O49: the pop word by whether a notice is queued. -/
theorem popWordReadAndWrite : Obligations.PopWordReadAndWrite := by
  intro s m hr c r
  refine ⟨fun nt rest hn => ?_, fun hn => ?_, fun v => ?_⟩
  · rw [State.exec_noticePop hr, State.popNotice_of_cons hn, popWord_eq]
    rfl
  · have hmarker : emptyMarker r.overflow = if r.overflow then 0x40000000#32 else 0#32 := by
      cases r.overflow <;> rfl
    rw [State.exec_noticePop hr, State.popNotice_of_nil hn, ← hmarker]
    rfl
  · rw [State.exec_overflowClear hr]
    rfl

/-! ### Flags, enables and the line (R141 to R143) -/

theorem Attention.line_iff (a : Attention) :
    a.line = true ↔ ∃ i : Nat, i < 6 ∧ a.pending.getLsbD i = true ∧ a.enables.getLsbD i = true := by
  have hzero : a.pending &&& a.enables = 0 ↔ ∀ i < 6, (a.pending &&& a.enables).getLsbD i = false :=
    ⟨fun h i _ => by rw [h]; simp, fun h => BitVec.eq_of_getLsbD_eq fun i hi => (h i hi).trans (by simp)⟩
  have hline : a.line = true ↔ ¬(a.pending &&& a.enables = 0) := by
    simp [Attention.line]
  rw [hline, hzero]
  simp [BitVec.getLsbD_and]

/-- Settles O52: a write of each word bit by bit, and the line by the flags it meets. -/
theorem flagsAndEnablesAreWritten : Obligations.FlagsAndEnablesAreWritten := by
  intro s m v hr c
  refine ⟨⟨((s.ctx m).attention.clearOnes (sixBits v)).pending, State.exec_flagsWordWrite hr v, fun i hi => ?_⟩,
    ⟨sixBits v, State.exec_enableMaskWrite hr v, fun i hi => ?_⟩, Attention.line_iff _⟩
  · rw [Attention.getLsbD_clearOnes _ _ hi, sixBits, BitVec.getLsbD_setWidth]
    simp [hi, c]
  · rw [sixBits, BitVec.getLsbD_setWidth]
    simp [hi]

/-! ### The POLL read (R144, R145) -/

/-- The causes by priority stand in the order of their bits. -/
theorem Cause.byPriority_eq (c : Cause) :
    ∃ before after, Cause.byPriority = before ++ c :: after ∧ ∀ d ∈ before, d.index < c.index := by
  refine ⟨Cause.byPriority.take c.index, Cause.byPriority.drop (c.index + 1), ?_, ?_⟩
  · cases c <;> rfl
  · cases c <;> decide

theorem Cause.exists_of_index {i : Nat} (h : i < 6) : ∃ c : Cause, c.index = i := by
  match i, h with
  | 0, _ => exact ⟨.intakeStopped, rfl⟩
  | 1, _ => exact ⟨.reclaimed, rfl⟩
  | 2, _ => exact ⟨.timebase, rfl⟩
  | 3, _ => exact ⟨.closed, rfl⟩
  | 4, _ => exact ⟨.intakeOpen, rfl⟩
  | 5, _ => exact ⟨.requestDone, rfl⟩

namespace Attention

variable {a : Attention} {c : Cause}

theorem isPending_and_isEnabled (a : Attention) (c : Cause) :
    (a.isPending c && a.isEnabled c) = (a.pending &&& a.enables).getLsbD c.index := (BitVec.getLsbD_and ..).symm

/-- The cause reported is the first that is both pending and enabled (R144). -/
theorem reported_eq_some (hc : (a.pending &&& a.enables).getLsbD c.index = true)
    (hbefore : ∀ j < c.index, (a.pending &&& a.enables).getLsbD j = false) : a.reported = some c := by
  obtain ⟨before, after, hsplit, hindex⟩ := c.byPriority_eq
  refine List.find?_eq_some_iff_append.mpr ⟨(isPending_and_isEnabled a c).trans hc, before, after, hsplit, fun d hd => ?_⟩
  rw [isPending_and_isEnabled, hbefore d.index (hindex d hd)]
  rfl

theorem pollWord_of_none (h : a.reported = none) : a.pollWord = BitVec.ofNat 32 a.pending.toNat := by
  have hpolled : a.polled = a := by
    unfold polled
    rw [h]
  rw [pollWord, h, hpolled, atBit_or_low (k := 8) (a.pending.isLt.trans (by decide))]
  exact congrArg _ (Nat.zero_add _)

theorem pollWord_of_some (h : a.reported = some c) :
    a.pollWord = BitVec.ofNat 32 ((c.index + 1) * 256 + a.polled.pending.toNat) := by
  rw [pollWord, h, atBit_or_low (k := 8) (a.polled.pending.isLt.trans (by decide)), Nat.mul_comm]
  rfl

end Attention

/-- Settles O53: the first cause in the order of the bits, and the word after the read. -/
theorem pollReportsTheHighestCause : Obligations.PollReportsTheHighestCause := by
  intro s m hr c both
  refine ⟨fun hnone => ?_, fun i hi hset hbelow => ?_⟩
  · have hreported : c.attention.reported = none := by
      refine (Attention.reported_eq_none _).mpr fun d => ?_
      rw [Attention.isPending_and_isEnabled]
      exact (congrArg (fun b : BitVec 6 => b.getLsbD d.index) hnone).trans (by simp)
    have hpolled : s.modAttention m Attention.polled = s := by
      have hsame : (s.ctx m).attention.polled = (s.ctx m).attention := by
        unfold Attention.polled
        rw [hreported]
      rw [State.modAttention, State.modCtx, hsame]
      exact State.setCtx_ctx_self s m
    rw [State.exec_pollRead hr, hpolled, Attention.pollWord_of_none hreported]
    rfl
  · obtain ⟨d, rfl⟩ := Cause.exists_of_index hi
    have hreported : c.attention.reported = some d := Attention.reported_eq_some hset hbelow
    refine ⟨c.attention.polled.pending, fun j hj => ?_, ?_⟩
    · rw [Attention.polled_of_reported _ hreported]
      by_cases hd : d = .closed
      · simp [hd, Cause.index]
      · have hindex : d.index ≠ 3 := by
          cases d with
          | closed => exact absurd rfl hd
          | _ => decide
        rw [if_neg hd, Attention.getLsbD_clear _ _ hj, decide_eq_false hindex, Bool.or_false]
    · rw [State.exec_pollRead hr, Attention.pollWord_of_some hreported]
      have hsame : c.attention.polled = { c.attention with pending := c.attention.polled.pending } := by
        rw [Attention.polled_of_reported _ hreported]
        split <;> rfl
      have hread : s.modAttention m Attention.polled
          = s.setCtx m { c with attention := { c.attention with pending := c.attention.polled.pending } } :=
        congrArg (fun a => s.setCtx m { c with attention := a }) hsame
      rw [hread]
      rfl

end Sys2Proof.Machine

/-! PROOFS. OPEN CURSOR and the station snapshot (R128, R129, R130). -/

namespace Sys2Proof.Machine

namespace State

variable {s : State} {m : Slot} {n : StationNo} {w : Window} {k : Nat}

theorem exec_openCursor (h : s.Ready m) :
    exec (.openCursor m) s = .next (((s.noteCode m 13).requestOpenCursor m).answer .ok none) :=
  congrArg Host.Outcome.next (onRequest_of_ready h 13 _)

theorem setCursor_noteCode (s : State) (m : Slot) (v : Word) (c : Cursor) :
    (s.noteCode m v).setCursor m c = (s.setCursor m c).noteCode m v := modReader_noteCode s m m v _

theorem requestOpenCursor_of_window (h : s.argNat m 0 = 1) :
    s.requestOpenCursor m = s.openWindowCursor m (s.argWide m 1 2) := by
  rw [requestOpenCursor, h]
  rfl

theorem requestOpenCursor_of_station (h : s.argNat m 0 = 2) (hn : s.argWide m 1 2 = n.val) :
    s.requestOpenCursor m = s.openStationCursor m n := by
  simp only [requestOpenCursor, h, stationOf_eq_some.mpr hn]

theorem requestOpenCursor_of_bad
    (h : (s.argNat m 0 ≠ 1 ∧ s.argNat m 0 ≠ 2) ∨ (s.argNat m 0 = 2 ∧ 127 < s.argWide m 1 2)) :
    s.requestOpenCursor m = s.completeBare m .badArg := by
  rcases h with ⟨hone, htwo⟩ | ⟨htwo, hn⟩
  · unfold requestOpenCursor
    split
    · exact absurd ‹_› hone
    · exact absurd ‹_› htwo
    · rfl
  · simp only [requestOpenCursor, htwo, stationOf_eq_none.mpr hn]

theorem openWindowCursor_of_none (h : s.findWindow k = none) :
    s.openWindowCursor m k = (s.setCursor m Cursor.none).completeBare m .noWindow := by
  rw [openWindowCursor, h]

theorem openWindowCursor_of_open (h : s.findWindow k = some w) (ho : w.isOpen = true) :
    s.openWindowCursor m k = (s.setCursor m Cursor.none).completeBare m .notClosed := by
  rw [openWindowCursor, h]
  exact if_pos ho

theorem openWindowCursor_of_closed (h : s.findWindow k = some w) (ho : w.isOpen = false) :
    s.openWindowCursor m k = (s.setCursor m ⟨.window k, 0, .reading, Vector.replicate 16 0⟩).complete m .ok
      ⟨BitVec.ofNat 32 w.fragments.length, BitVec.ofNat 32 (11 + 6 * w.fragments.length), 0⟩ := by
  rw [openWindowCursor, h]
  exact if_neg (by rw [ho]; decide)

end State

/-- Settles O51: OPEN CURSOR by its target, the snapshot word by word. -/
theorem openCursorReplacesTheCursor : Obligations.OpenCursorReplacesTheCursor := by
  refine ⟨⟨rfl, rfl, rfl⟩, fun r n => ?_, fun s m hready => ?_⟩
  · intro present horizon a c
    simp only [Station.snapshot, flagBit, atBit, ← BitVec.ofNat_or, Nat.shiftLeft_zero, hiWord_eq, present, Nat.or_assoc]
    rfl
  · intro kind number put
    have hkind : (s.noteCode m 13).argNat m 0 = kind := State.argNat_noteCode ..
    have hnumber : (s.noteCode m 13).argWide m 1 2 = number := State.argWide_noteCode ..
    rw [State.exec_openCursor hready]
    refine ⟨fun hbad => ?_, fun n hk hn => ?_, fun hk hnone => ?_, fun w hk hw => ⟨fun ho => ?_, fun ho => ?_⟩⟩
    · rw [State.requestOpenCursor_of_bad (by rw [hkind, hnumber]; exact hbad), State.answer_completeBare_noteCode]
      rfl
    · rw [State.requestOpenCursor_of_station (hkind.trans hk) (hnumber.trans hn), State.openStationCursor,
        State.setCursor_noteCode, State.answer_complete_noteCode]
      rfl
    · rw [State.requestOpenCursor_of_window (hkind.trans hk), hnumber,
        State.openWindowCursor_of_none (s := s.noteCode m 13) hnone,
        State.setCursor_noteCode, State.answer_completeBare_noteCode]
      rfl
    · rw [State.requestOpenCursor_of_window (hkind.trans hk), hnumber,
        State.openWindowCursor_of_open (s := s.noteCode m 13) hw ho,
        State.setCursor_noteCode, State.answer_completeBare_noteCode]
      rfl
    · rw [State.requestOpenCursor_of_window (hkind.trans hk), hnumber,
        State.openWindowCursor_of_closed (s := s.noteCode m 13) hw ho,
        State.setCursor_noteCode, State.answer_complete_noteCode]
      rfl

end Sys2Proof.Machine

/-! PROOFS. The shelf bus: parity, the words a write reaches, and the code word (R149 to R160, R177). -/

namespace Sys2Proof.Machine

namespace State

variable {s : State} {m : Slot} {address : WordAddress} {v : Word} {lanes : BitVec 4}

theorem recordBusError_eq (s : State) (kind : ParityKind) (address : WordAddress) (m : Slot) (d : Direction) :
    s.recordBusError kind address m d = { s with busError := oneMoreFailure s.busError kind address m d } := by
  rw [recordBusError]
  cases s.busError <;> rfl

theorem next_onBus (h : s.inReset = false) (act : State → State) :
    (.next (s.onBus act) : Host.Outcome State Fault Refusal) = .next (act s) :=
  congrArg Host.Outcome.next (onBus_of_not_inReset h act)

theorem exec_addressParityError (h : s.inReset = false) (lines : AddressLines) (d : Direction) :
    exec (.addressParityError lines m d) s = .next (s.checkAddress lines.word m d lines.parity) :=
  next_onBus h _

theorem exec_registerWrite (h : s.inReset = false) :
    exec (.registerWrite address m v lanes) s = .next (s.writeTransaction address m v lanes) :=
  next_onBus h _

theorem writeTransaction_of_outside (h : s.inWindow address = false) :
    s.writeTransaction address m v lanes = s.answer .noAck none := by
  rw [writeTransaction, h]
  rfl

theorem writeTransaction_of_badLanes (h : s.inWindow address = true) (hl : lanesOk v lanes = false) :
    s.writeTransaction address m v lanes = (s.recordBusError .data address m .write).answer .dataErr none := by
  rw [writeTransaction, h, hl]
  rfl

/-- A word address inside the window reaches the word at its offset from the base (R149). -/
theorem writeTransaction_of_offset {offset : Nat} (ha : address.toNat = 16384 * s.straps.base.toNat + offset)
    (ho : offset < 16384) (hl : lanesOk v lanes = true) :
    s.writeTransaction address m v lanes = s.writeWord offset m v := by
  have hin : s.inWindow address = true := (s.inWindow_iff address).mpr (by omega)
  have hoff : offsetOf address = offset := by
    rw [offsetOf, ha]
    omega
  rw [writeTransaction, hin, hl, hoff]
  rfl

theorem writeWord_staging (k : Fin 8) (hk : k.val < 7) :
    s.writeWord (8192 + k.val) m v = (s.storeStaging m k v).answer .ok none := by
  have hself : (⟨8192 + k.val - 8192, by omega⟩ : Fin 8) = k := Fin.ext (by simp)
  rw [writeWord, if_neg (by omega), dif_pos (by omega), hself]

theorem writeWord_arg (k : Fin 7) : s.writeWord (8192 + 17 + k.val) m v = (s.storeArg m k v).answer .ok none := by
  have hself : (⟨8192 + 17 + k.val - (8192 + 17), by omega⟩ : Fin 7) = k := Fin.ext (by simp)
  rw [writeWord, if_neg (by omega), dif_neg (by omega), if_neg (by omega), if_neg (by omega), dif_pos (by omega),
    hself]

/-- A word without a row of its own that is neither a staging nor an argument word ignores what is written (R149). -/
theorem writeWord_ignored {offset : Nat}
    (hrow : offset ∉ ([6, 8199, 8208, 8220, 8240, 8243, 8256, 8257] : List Nat))
    (hstage : ¬(8192 ≤ offset ∧ offset < 8199)) (harg : ¬(8209 ≤ offset ∧ offset < 8216)) :
    s.writeWord offset m v = s.answer .ok none := by
  simp only [List.mem_cons, List.not_mem_nil, or_false, not_or] at hrow
  obtain ⟨h6, hcommit, hcode, hreset, hpop, hposition, hflags, henables⟩ := hrow
  rw [writeWord, if_neg h6, dif_neg hstage, if_neg hcommit, if_neg hcode, dif_neg (by omega), if_neg hreset,
    if_neg hpop, if_neg hposition, if_neg hflags, if_neg henables]

/-- The words with a row of their own are written by that row's command (log 9). -/
theorem exec_of_mem_ownRows (h : s.inReset = false) (m : Slot) (v : Word) :
    ∀ p ∈ ([(6, .busErrorClear m v), (8199, .commit m v), (8220, .contextReset m (.resetWord v)),
      (8240, .overflowClear m v), (8243, .cursorPositionWrite m v), (8256, .flagsWordWrite m v),
      (8257, .enableMaskWrite m v), (8208, .unknownRequestCode m v)] : List (Nat × Instr)),
      p.1 < 16384 ∧ exec p.2 s = .next (s.writeWord p.1 m v) := by
  simp only [List.forall_mem_cons, List.not_mem_nil, false_implies, implies_true, and_true]
  have taken := next_onBus h
  exact ⟨⟨by decide, taken _⟩, ⟨by decide, taken _⟩, ⟨by decide, taken _⟩, ⟨by decide, taken _⟩,
    ⟨by decide, taken _⟩, ⟨by decide, taken _⟩, ⟨by decide, taken _⟩, ⟨by decide, taken _⟩⟩

/-- A code word write of a request's code is that request (R158). -/
theorem exec_of_mem_requestsOf (h : s.inReset = false) (m : Slot) :
    ∀ p ∈ requestsOf m, exec p.2 s = .next (s.writeCode m (p.1.setWidth 32)) := by
  have taken := next_onBus h
  simp only [requestsOf, List.forall_mem_cons, List.not_mem_nil, false_implies, implies_true, and_true]
  exact ⟨taken _, taken _, taken _, taken _, taken _, taken _, taken _, taken _, taken _, taken _, taken _, taken _,
    taken _, taken _, taken _, taken _, taken _, taken _⟩

theorem exec_unknownRequestCode (h : s.inReset = false) : exec (.unknownRequestCode m v) s = .next (s.writeCode m v) :=
  next_onBus h _

theorem exec_requestSlotRetry (h : s.inReset = false) : exec (.requestSlotRetry m v) s = .next (s.writeCode m v) :=
  next_onBus h _

theorem writeCode_of_inFlight (h : (s.ctx m).request.inFlight = true) (v : Word) :
    s.writeCode m v = s.answer .retry none := by
  rw [writeCode, takeRequest, h]
  rfl

theorem requestOf_of_unknown (hv : v.toNat = 0 ∨ 18 < v.toNat) : s.requestOf m v = s.completeBare m .badArg := by
  rcases hv with hv | hv
  · rw [requestOf, hv]
    rfl
  · have habove : v.toNat = (v.toNat - 19) + 19 := by omega
    rw [requestOf, habove]
    rfl

theorem writeCode_of_unknown (h : (s.ctx m).request.inFlight = false) (hv : v.toNat = 0 ∨ 18 < v.toNat) :
    s.writeCode m v = s.answered m (v.setWidth 8) .badArg Values.zero := by
  rw [writeCode, takeRequest, h, requestOf_of_unknown hv, if_neg (by decide), answer_completeBare_noteCode]
  rfl

end State

/-- The lanes of a word pass exactly when each holds an odd number of ones (R152). -/
theorem lanesOk_eq_false {v : Word} {lanes : BitVec 4} : lanesOk v lanes = false ↔ ∃ k : Nat, k < 4 ∧
    ((List.range 8).countP (fun i => v.getLsbD (8 * k + i)) + (lanes.getLsbD k).toNat) % 2 = 0 := by
  rw [← Bool.not_eq_true, lanesOk_iff]
  simp only [laneParityOk_iff, not_forall, Nat.mod_two_not_eq_one, exists_prop]

/-- Settles O54: parity by counting ones, the record of a failure, and the lanes of what the part returns. -/
theorem parityFailuresAreRecorded : Obligations.ParityFailuresAreRecorded := by
  intro s address m h inside ones
  have hin : s.inWindow address = true ↔ inside := s.inWindow_iff address
  have hparity (d : Direction) (parity : Bool) : addressParityOk address m d parity = true ↔ ones d parity % 2 = 1 :=
    addressParityOk_iff address m d parity
  refine ⟨fun d parity hi hp => ?_, fun d parity hi hp => ?_, fun d parity hi => ?_, fun v lanes hi hl => ?_,
    fun v => State.next_onBus h _, fun a v ha => ?_⟩
  · have hbad : addressParityOk address m d parity = false :=
      Bool.eq_false_iff.mpr fun hok => absurd ((hparity d parity).mp hok) (by omega)
    rw [State.exec_addressParityError h, State.checkAddress, if_pos (hin.mpr hi), hbad, State.recordBusError_eq]
    rfl
  · rw [State.exec_addressParityError h, State.checkAddress, if_pos (hin.mpr hi), if_pos ((hparity d parity).mpr hp)]
  · rw [State.exec_addressParityError h, State.checkAddress, if_neg fun hi' => hi (hin.mp hi')]
    rfl
  · rw [State.exec_registerWrite h, State.writeTransaction_of_badLanes (hin.mpr hi) (lanesOk_eq_false.mpr hl),
      State.recordBusError_eq]
    rfl
  · obtain ⟨lanes, hlanes, hodd⟩ := State.lanes_odd ha
    exact ⟨lanes, hlanes, fun k hk => (laneParityOk_iff v lanes k).mp ((lanesOk_iff v lanes).mp hodd k hk)⟩

/-- Settles O55: a write with good lanes by the offset of its word. -/
theorem registerWriteReachesItsWord : Obligations.RegisterWriteReachesItsWord := by
  intro s address m v lanes h hlanes c b w
  have hl : lanesOk v lanes = true :=
    (lanesOk_iff v lanes).mpr fun k hk => (laneParityOk_iff v lanes k).mpr (hlanes k hk)
  have reached {offset : Nat} (ha : address.toNat = b + offset) (ho : offset < 16384) :
      w = .next (s.writeWord offset m v) :=
    (State.exec_registerWrite h).trans (congrArg Host.Outcome.next (State.writeTransaction_of_offset ha ho hl))
  refine ⟨fun hout => ?_, fun k hk ha => ?_, fun k ha => ?_, fun offset ha ho hrow hstage harg => ?_,
    fun p hp ha => ?_, fun p hp ha hv => ?_⟩
  · have hwin : s.inWindow address = false :=
      Bool.eq_false_iff.mpr fun hin => absurd ((s.inWindow_iff address).mp hin) (by omega)
    exact (State.exec_registerWrite h).trans (congrArg Host.Outcome.next (State.writeTransaction_of_outside hwin))
  · rw [reached (offset := 8192 + k.val) (by omega) (by omega), State.writeWord_staging k hk]
    rfl
  · rw [reached (offset := 8192 + 17 + k.val) (by omega) (by omega), State.writeWord_arg]
    rfl
  · rw [reached ha ho, State.writeWord_ignored hrow hstage harg]
    rfl
  · obtain ⟨hlt, hexec⟩ := State.exec_of_mem_ownRows h m v p hp
    rw [reached ha hlt, hexec]
  · have hcode : v = p.1.setWidth 32 := BitVec.eq_of_toNat_eq (by rw [hv, BitVec.toNat_setWidth]; omega)
    rw [reached ha (by decide), State.exec_of_mem_requestsOf h m p hp, hcode]
    rfl

/-- Settles O56: an unknown code, and every code write while the slot is IN FLIGHT. -/
theorem unknownCodesAndRetries : Obligations.UnknownCodesAndRetries := by
  refine fun s m h => ⟨fun v hidle hv => ?_, fun hf => ⟨fun v => ?_, fun p hp => ?_⟩⟩
  · rw [State.exec_unknownRequestCode h, State.writeCode_of_unknown hidle hv]
  · rw [State.exec_requestSlotRetry h, State.writeCode_of_inFlight hf]
    rfl
  · rw [State.exec_of_mem_requestsOf h m p hp, State.writeCode_of_inFlight hf]
    rfl

end Sys2Proof.Machine

/-! PROOFS. SET PARAMETER: its table, its ranges and its checks in order (R168). -/

namespace Sys2Proof.Machine

namespace Params

variable {p : Params} {code x : Nat}

theorem value_of_unknown (h : code = 0 ∨ 17 < code) : p.value code = none := by
  rcases h with rfl | h
  · rfl
  · have habove : code = (code - 18) + 18 := by omega
    rw [habove]
    rfl

theorem value_table (p : Params) : (List.range 18).map p.value =
    [none, some p.lockWindow, some p.gp, some p.gi, some p.hubGrowth, some p.scanBit, some p.silenceTimeout,
      some p.maxDelay, some p.minDriftSpan, some p.smoothing, some p.probeGrowth, some p.stepLimit, some p.satBase,
      some p.satGrowth, some p.staleLimit, some p.windowLength, some p.holdOpen, some p.tolerance] := rfl

/-- A value that is accepted names a parameter. -/
theorem code_of_accepts (h : p.accepts code x = true) : 1 ≤ code ∧ code ≤ 17 := by
  rcases Nat.eq_zero_or_pos code with rfl | hpos
  · exact absurd h Bool.false_ne_true
  · refine ⟨hpos, Nat.not_lt.mp fun habove => ?_⟩
    have hcode : code = (code - 18) + 18 := by omega
    rw [hcode] at h
    exact absurd h Bool.false_ne_true

/-- Setting a parameter sets its place in the table and no other. -/
theorem table_assign (p : Params) (x : Nat) (h : 1 ≤ code ∧ code ≤ 17) :
    (List.range 18).map (p.assign code x).value = ((List.range 18).map p.value).set code (some x) := by
  obtain ⟨hlow, hhigh⟩ := h
  interval_cases code <;> rfl

theorem value_assign (p : Params) (x : Nat) (h : 1 ≤ code ∧ code ≤ 17) (j : Nat) :
    (p.assign code x).value j = if j = code then some x else p.value j := by
  rcases Nat.lt_or_ge j 18 with hj | hj
  · have hget := congrArg (fun l => l[j]?) (table_assign p x h)
    simp only [List.getElem?_set, List.getElem?_map, List.getElem?_range hj, Option.map_some, List.length_map,
      List.length_range] at hget
    split at hget
    · simp_all
    · rw [if_neg (Ne.symm ‹_›)]
      exact Option.some.inj hget
  · rw [if_neg (by omega), value_of_unknown (.inr hj), value_of_unknown (.inr hj)]

end Params

namespace State

variable {s : State} {m : Slot}

theorem exec_setParameter (h : s.Ready m) :
    exec (.setParameter m) s = .next (((s.noteCode m 17).requestSetParameter m).answer .ok none) :=
  congrArg Host.Outcome.next (onRequest_of_ready h 17 _)

variable {held : Nat}

theorem requestSetParameter_of_unknown (h : s.params.value (s.argNat m 0) = none) :
    s.requestSetParameter m = s.complete m .badArg ⟨s.arg m 0, 0, 0⟩ := by
  rw [requestSetParameter, h]

/-- The window length and the hold-open time stand while the part runs. -/
theorem requestSetParameter_of_run (h : s.params.value (s.argNat m 0) = some held)
    (hl : isLengthCode (s.argNat m 0) = true) (hr : s.part = .run) :
    s.requestSetParameter m = s.complete m .state ⟨s.arg m 0, loWord held, 0⟩ := by
  rw [requestSetParameter, h]
  simp [hl, hr]

/-- They stand also while a window is held. -/
theorem requestSetParameter_of_held (h : s.params.value (s.argNat m 0) = some held)
    (hl : isLengthCode (s.argNat m 0) = true) (hr : s.part = .setup) (hw : s.held ≠ []) :
    s.requestSetParameter m = s.complete m .busy ⟨s.arg m 0, loWord held, 0⟩ := by
  rw [requestSetParameter, h]
  simp [hl, hr, hw]

theorem requestSetParameter_of_free (h : s.params.value (s.argNat m 0) = some held)
    (hf : isLengthCode (s.argNat m 0) = false ∨ (s.part = .setup ∧ s.held = [])) :
    s.requestSetParameter m =
      if s.params.accepts (s.argNat m 0) (s.argNat m 1) then
        State.complete { s with params := s.params.assign (s.argNat m 0) (s.argNat m 1) } m .ok
          ⟨s.arg m 0, loWord (s.argNat m 1), 0⟩
      else s.complete m .badArg ⟨s.arg m 0, loWord held, 0⟩ := by
  rw [requestSetParameter, h]
  rcases hf with hl | ⟨hsetup, hnone⟩
  · simp [hl]
  · simp [hsetup, hnone]

theorem withParams_noteCode (s : State) (m : Slot) (v : Word) (p : Params) :
    { s.noteCode m v with params := p } = State.noteCode { s with params := p } m v := rfl

end State

/-- Settles O57: SET PARAMETER by the first check that fails. -/
theorem setParameterChecksInOrder : Obligations.SetParameterChecksInOrder := by
  intro s m hready code v refused
  have hcode : (s.noteCode m 17).argNat m 0 = code := State.argNat_noteCode ..
  have hv : (s.noteCode m 17).argNat m 1 = v := State.argNat_noteCode ..
  have hlength : isLengthCode code = true ↔ code ∈ [15, 16] := by simp [isLengthCode]
  have hother : isLengthCode code = false ↔ code ∉ [15, 16] := by rw [← hlength, Bool.not_eq_true]
  have harg : (s.noteCode m 17).arg m 0 = s.arg m 0 := State.arg_noteCode ..
  have value {o : Option Nat} (h : s.params.value code = o) :
      (s.noteCode m 17).params.value ((s.noteCode m 17).argNat m 0) = o := by rwa [hcode]
  rw [State.exec_setParameter hready]
  refine ⟨fun hunknown => ?_, fun held hheld => ⟨fun hl hrun => ?_, fun hl hsetup hw => ?_, fun hfree ha => ?_,
    fun hfree ha => ?_⟩, Params.value_table, fun p k x ha => Params.value_assign p x (Params.code_of_accepts ha),
    fun p x => ?_, fun p x => ?_⟩
  · rw [State.requestSetParameter_of_unknown (value (Params.value_of_unknown hunknown)), harg,
      State.answer_complete_noteCode]
    rfl
  · rw [State.requestSetParameter_of_run (value hheld) (by rwa [hcode, hlength]) hrun, harg,
      State.answer_complete_noteCode]
    rfl
  · rw [State.requestSetParameter_of_held (value hheld) (by rwa [hcode, hlength]) hsetup hw, harg,
      State.answer_complete_noteCode]
    rfl
  · rw [State.requestSetParameter_of_free (value hheld) (by rwa [hcode, hother]), hcode, hv, harg,
      State.noteCode_params, ha, if_neg (by decide), State.answer_complete_noteCode]
    rfl
  · rw [State.requestSetParameter_of_free (value hheld) (by rwa [hcode, hother]), hcode, hv, harg,
      State.noteCode_params, ha, if_pos rfl, State.withParams_noteCode, State.answer_complete_noteCode]
    congr 2
    simp [loWord, v]
  · simp only [List.forall_mem_cons, List.not_mem_nil, false_implies, implies_true, and_true]
    simp [Params.accepts]
  · simp [Params.accepts]

end Sys2Proof.Machine

/-! PROOFS. The full reset, its end, and what is not taken in between (R163, R173, R174). -/

namespace Sys2Proof.Machine

/-- Every transaction goes through the bus's check for a full reset (R163). -/
theorem exec_eq_onBus {c : Instr} {m : Slot} (s : State) (h : sender c = some m) :
    ∃ f : State → State, exec c s = .next (s.onBus f) := by
  cases c <;> try cases h
  case contextReset way => cases way <;> exact ⟨_, rfl⟩
  all_goals exact ⟨_, rfl⟩

/-- Every event goes through the check for a full reset (R173). -/
theorem exec_eq_onEvent {c : Instr} (s : State) (h : sender c = none) (hreset : ∀ line : ResetLine, c ≠ .fullReset line)
    (hend : ∀ (line : ResetLine) (straps : Straps), c ≠ .fullResetEnd line straps) :
    ∃ f : State → State, exec c s = .next (s.onEvent f) := by
  cases c <;> try cases h
  case fullReset line => exact absurd rfl (hreset line)
  case fullResetEnd line straps => exact absurd rfl (hend line straps)
  all_goals exact ⟨_, rfl⟩

namespace State

variable (straps : Straps) (pin bus : Bool) (pending : List Instr)

theorem fullResetValues_ctx (m : Slot) : (fullResetValues straps pin bus pending).ctx m = Context.reset := by
  simp [ctx, fullResetValues]

theorem fullResetValues_station (n : StationNo) :
    (fullResetValues straps pin bus pending).station n = Station.reset := by
  simp [station, fullResetValues]

theorem fullResetValues_held : (fullResetValues straps pin bus pending).held = [] := by
  simp [held, fullResetValues]

variable (s : State) (line : ResetLine) (asserted : Bool)

/-- Setting a reset line changes that line alone. -/
theorem setResetLine_eq : s.setResetLine line asserted =
    { s with
      resetPin := if line = .resetInput then asserted else s.resetPin
      busReset := if line = .shelfBus then asserted else s.busReset } := by
  cases line <;> rfl

/-- The straps are latched when the line negated was the only one asserted (R174). -/
theorem exec_fullResetEnd (straps : Straps) :
    exec (.fullResetEnd line straps) s = .next { s.setResetLine line false with
      straps := if s.inReset = true ∧ (s.setResetLine line false).inReset = false then straps else s.straps } := by
  refine congrArg Host.Outcome.next ?_
  cases line <;> cases hpin : s.resetPin <;> cases hbus : s.busReset <;> simp [inReset, setResetLine, hpin, hbus]

end State

/-- Settles O59: the reset values field by field, the end of the reset by the two lines. -/
theorem fullResetAndItsEnd : Obligations.FullResetAndItsEnd := by
  refine ⟨fun s line => ⟨_, rfl, ?_⟩, fun s straps => ⟨?_, ?_⟩, fun s c h => ⟨fun hs hr he => ?_, fun m hs => ?_⟩⟩
  · rw [State.setResetLine_eq]
    refine ⟨?_, rfl, rfl, rfl, ?_, ?_, rfl, rfl, rfl, State.fullResetValues_held .., rfl, rfl, fun n => ?_,
      fun m => ⟨?_, ?_⟩⟩
    · cases line <;> simp [State.inReset]
    · cases line <;> simp [State.fullResetValues]
    · cases line <;> simp [State.fullResetValues]
    · exact State.fullResetValues_station ..
    · exact congrArg (·.attention.line) (State.fullResetValues_ctx ..)
    · exact State.fullResetValues_ctx ..
  · cases hpin : s.resetPin <;> simp [State.exec_fullResetEnd, State.setResetLine_eq, State.inReset, hpin]
  · cases hbus : s.busReset <;> simp [State.exec_fullResetEnd, State.setResetLine_eq, State.inReset, hbus]
  · obtain ⟨f, hf⟩ := exec_eq_onEvent s hs hr he
    rw [hf, onEvent_of_inReset h]
  · obtain ⟨f, hf⟩ := exec_eq_onBus s hs
    rw [hf, onBus_of_inReset h]
    rfl

end Sys2Proof.Machine

/-! PROOFS. The round robin over the slots (R83). -/

namespace Sys2Proof.Machine

namespace State

variable {s : State} {m : Slot} {rec : IntakeRecord} {rest : List IntakeRecord}

theorem exec_recordTaking (h : s.inReset = false) : exec .recordTaking s = .next s.takeRecord :=
  congrArg Host.Outcome.next (onEvent_of_not_inReset h _)

/-- Counting up from the pointer, and round from 3 to 0, visits the four slots in the order of their distance from it. -/
theorem servedSlot_eq (s : State) : s.servedSlot = ((List.finRange 4).map (s.rrPointer + ·)).find? s.eligible := by
  have hfour : List.finRange 4 = [0, 1, 2, 3] := rfl
  rw [servedSlot, hfour]
  simp only [List.map_cons, List.map_nil, add_zero]

/-- The slot served is the first eligible one from the pointer on (R83). -/
theorem servedSlot_eq_some {j : Slot} (h : s.eligible (s.rrPointer + j) = true)
    (hmin : ∀ i : Slot, i < j → s.eligible (s.rrPointer + i) = false) : s.servedSlot = some (s.rrPointer + j) := by
  rw [servedSlot_eq, List.find?_map, Option.map_eq_some_iff]
  refine ⟨j, ?_, rfl⟩
  rw [← Fin.find?_eq_find?_finRange, Fin.find?_eq_some_iff]
  exact ⟨h, fun i hi => hmin i hi⟩

theorem takeRecord_of_none (h : s.servedSlot = none) : s.takeRecord = s := by
  rw [takeRecord, h]

theorem takeRecord_of_served (h : s.servedSlot = some m) (hq : (s.ctx m).intake.queue = rec :: rest) :
    s.takeRecord = { s.takeHead m rec with rrPointer := m + 1 } := by
  rw [takeRecord, h]
  dsimp only
  rw [hq]

end State

/-- Settles O36: the first eligible slot from the pointer on is served, and the pointer goes past it. -/
theorem roundRobinServesTheNextEligible : Obligations.RoundRobinServesTheNextEligible := by
  intro s h eligible
  have hidle {k : Slot} (hk : ¬eligible k) : s.eligible k = false :=
    Bool.eq_false_iff.mpr fun he => hk (State.eligible_iff.mp he)
  rw [State.exec_recordTaking h]
  refine ⟨fun hnone => ?_, fun j hj hmin => ?_⟩
  · rw [State.takeRecord_of_none (State.servedSlot_eq_none fun k => hidle (hnone k))]
  · have hserved := State.servedSlot_eq_some (State.eligible_iff.mpr hj) fun i hi => hidle (hmin i hi)
    obtain ⟨rec, rest, hq⟩ := List.exists_cons_of_ne_nil hj.1
    exact ⟨hserved, _, congrArg Host.Outcome.next (State.takeRecord_of_served hserved hq), rfl⟩

end Sys2Proof.Machine

/-! PROOFS. A record taken from the head of a queue: how the queue is left, and what a refusal counts (R80, R81, R85,
R92, R93). -/

namespace Sys2Proof.Machine

/-- Slot m's context once its head record has left the queue. -/
def Context.popped (c : Context) (rest : List IntakeRecord) : Context :=
  { c with
    intake := { c.intake with queue := rest, hold := c.intake.hold && decide (rest ≠ []) }
    attention :=
      if rest = [] ∧ c.intake.hold = true then { c.attention with pending := c.attention.pending ||| 0x10#6 }
      else c.attention }

namespace State

variable {s t : State} {m : Slot} {rec : IntakeRecord} {rest : List IntakeRecord}

theorem modIntake_setCtx (s : State) (m : Slot) (c : Context) (f : Intake → Intake) :
    (s.setCtx m c).modIntake m f = s.setCtx m { c with intake := f c.intake } := by
  rw [modIntake, modCtx, ctx_setCtx_same, setCtx_setCtx]

theorem modIntake_eq (s : State) (m : Slot) (f : Intake → Intake) :
    s.modIntake m f = s.setCtx m { s.ctx m with intake := f (s.ctx m).intake } := rfl

theorem raise_setCtx (s : State) (m : Slot) (c : Context) (cause : Cause) :
    (s.setCtx m c).raise m cause = s.setCtx m { c with attention := c.attention.raise cause } := by
  rw [raise, modAttention, modCtx, ctx_setCtx_same, setCtx_setCtx]

/-- The head record leaves the queue (R80), and HOLD with the last (R81). -/
theorem popQueue_of_cons (hq : (s.ctx m).intake.queue = rec :: rest) :
    s.popQueue m = s.setCtx m ((s.ctx m).popped rest) := by
  rw [popQueue, modIntake_eq, hq]
  simp only [List.tail_cons, ctx_setCtx_same]
  cases rest with
  | cons next rest => simp [Context.popped]
  | nil =>
    rw [if_pos List.isEmpty_nil, clearHold, ctx_setCtx_same]
    cases hh : (s.ctx m).intake.hold with
    | false => simp [Context.popped, hh]
    | true =>
      rw [if_pos rfl, modIntake_setCtx, raise_setCtx]
      simp [Context.popped, hh, Attention.raise, Cause.mask, Cause.index]

/-- The stations with the counters of the one that a record names changed. -/
def countedAt (s : State) (rec : IntakeRecord) (f : StationCounters → StationCounters) : Vector Station 128 :=
  Vector.ofFn fun n : Fin 128 =>
    if n.val = rec.station then { s.station n with counters := f (s.station n).counters } else s.station n

theorem countAtStation_setCtx (s : State) (m : Slot) (c : Context) (rec : IntakeRecord)
    (f : StationCounters → StationCounters) :
    (s.setCtx m c).countAtStation rec f = (s.countAtStation rec f).setCtx m c := by
  unfold countAtStation
  cases stationOf rec.station <;> rfl

theorem station_countAtStation (s : State) (rec : IntakeRecord) (f : StationCounters → StationCounters) (k : StationNo) :
    (s.countAtStation rec f).station k =
      if k.val = rec.station then { s.station k with counters := f (s.station k).counters } else s.station k := by
  unfold countAtStation
  split
  next n hn =>
    have hname := stationOf_eq_some.mp hn
    by_cases hk : k = n
    · subst hk
      rw [station_modStation_same, if_pos hname.symm]
      rfl
    · rw [station_modStation_of_ne hk, if_neg fun h => hk (Fin.ext (h.trans hname))]
  next hn =>
    have hname := stationOf_eq_none.mp hn
    rw [if_neg (by omega)]

/-- A counter function applied at the station that a record names, if it names one. -/
theorem countAtStation_eq (s : State) (rec : IntakeRecord) (f : StationCounters → StationCounters) :
    s.countAtStation rec f = { s with stations := s.countedAt rec f } := by
  have hrest : s.countAtStation rec f = { s with stations := (s.countAtStation rec f).stations } := by
    unfold countAtStation
    split <;> rfl
  refine hrest.trans (congrArg (fun v => { s with stations := v }) (Vector.ext fun i hi => ?_))
  rw [countedAt, Vector.getElem_ofFn]
  exact station_countAtStation s rec f ⟨i, hi⟩

theorem refuseAtSlot_setCtx (s : State) (m : Slot) (c : Context) (rec : IntakeRecord) (kind : RecordKind)
    (code : RefusalCode) :
    (s.setCtx m c).refuseAtSlot m rec kind code = s.setCtx m { c with
      intake := { c.intake with
        refused := min 65535 (c.intake.refused + 1)
        lastRefusal := some (.refused code kind rec.station rec.tag) } } := by
  rw [refuseAtSlot, writeRefusal, modIntake_setCtx, modIntake_setCtx]
  rfl

theorem stopMalformed_eq (s : State) (m : Slot) (rec : IntakeRecord) :
    s.stopMalformed m rec = s.setCtx m { s.ctx m with
      intake := { (s.ctx m).intake with
        stopped := true, lastRefusal := some (.malformed (rec.word 0) (rec.word 1) (rec.word 2)) }
      attention := { (s.ctx m).attention with pending := (s.ctx m).attention.pending ||| 0x01#6 } } := by
  rw [stopMalformed, writeRefusal, s.modIntake_eq, modIntake_setCtx, raise_setCtx]
  rfl

end State
end Sys2Proof.Machine

/-! PROOFS. A PROBE record: its checks in order, and what an accepted one does (R48, R49, R93). -/

namespace Sys2Proof.Machine

theorem inTimeRange_iff {x : Int} : inTimeRange x = true ↔ 0 ≤ x ∧ x < 2 ^ 56 := by
  have hmax : (maxUs : Int) = 2 ^ 56 - 1 := rfl
  simp only [inTimeRange, Bool.and_eq_true, decide_eq_true_eq]
  omega

theorem extendAgainst_horizon (raw : Nat) (horizon : Option Nat) :
    extendAgainst raw (horizon.map Int.ofNat) =
      match horizon with | some h => extendStamp raw h | none => (raw : Int) := by
  cases horizon <;> rfl

/-- The checks of a probe's four times, in order, on stamps extended as R48 says. -/
theorem measureProbe_eq {t1 t4 raw2 raw3 : Nat} {horizon : Option Nat} {maxDelay : Nat} {t2 t3 delay : Int}
    (h2 : t2 = extendAgainst raw2 (horizon.map Int.ofNat)) (h3 : t3 = extendStamp raw3 t2)
    (hd : delay = ((t4 : Int) - t1) - (t3 - t2)) :
    measureProbe t1 t4 raw2 raw3 horizon maxDelay =
      if ¬(0 ≤ t2 ∧ t2 < 2 ^ 56) ∨ ¬(0 ≤ t3 ∧ t3 < 2 ^ 56) then .error .badProbe
      else if t4 < t1 ∨ t3 < t2 ∨ delay < 0 then .error .badProbe
      else if (maxDelay : Int) < delay then .error .probeDelay
      else .ok ⟨t2.toNat, t3.toNat, ((t1 : Int) - t2) + ((t4 : Int) - t3), delay.toNat⟩ := by
  subst h2 h3 hd
  simp only [← inTimeRange_iff, Bool.not_eq_true, ← Bool.not_eq_true', ← Bool.or_eq_true]
  rfl

namespace State

variable {s : State} {m : Slot} {rec : IntakeRecord} {rest : List IntakeRecord} {n : StationNo}

theorem judgeProbe_of_noStation (h : 127 < rec.station) : s.judgeProbe m rec = .error .notOwner := by
  rw [judgeProbe, stationOf_eq_none.mpr h]

/-- The checks of a PROBE record that names a station, in the order of R93. -/
theorem judgeProbe_eq (h : rec.station = n.val) :
    s.judgeProbe m rec =
      if s.owns m n = false then .error .notOwner
      else if (s.station n).state = .disabled then .error .disabled
      else if (s.station n).config.mode ≠ .probed then .error .mode
      else match (s.ctx m).capture.lookup rec.sendSeq, (s.ctx m).capture.lookup rec.receiveSeq with
        | some t1, some t4 =>
          (measureProbe t1 t4 rec.rawT2 rec.rawT3 (s.station n).horizon s.params.maxDelay).map fun p => (n, p)
        | _, _ => .error .staleCapture := by
  rw [judgeProbe, stationOf_eq_some.mpr h]
  simp only [Bool.not_eq_true']
  congr 3
  cases (s.ctx m).capture.lookup rec.sendSeq with
  | none => rfl
  | some t1 =>
    cases (s.ctx m).capture.lookup rec.receiveSeq with
    | none => rfl
    | some t4 =>
      cases hp : measureProbe t1 t4 rec.rawT2 rec.rawT3 (s.station n).horizon s.params.maxDelay <;>
        simp [hp, Except.map]

theorem takeHead_of_probe (hw : rec.wellFormedKind = some .probe) : s.takeHead m rec = (s.popQueue m).takeProbe m rec := by
  rw [takeHead, hw]

theorem takeProbe_of_error {code : RefusalCode} (h : s.judgeProbe m rec = .error code) :
    s.takeProbe m rec = s.refuseProbe m rec code := by
  rw [takeProbe, h]

theorem takeProbe_of_ok {p : Probe} (h : s.judgeProbe m rec = .ok (n, p)) :
    s.takeProbe m rec =
      (s.modStation n fun r => r.processProbe p s.params s.part).modIntake m fun i =>
        { i with probesAccepted := raise16 i.probesAccepted } := by
  rw [takeProbe, h]

theorem modStation_setCtx (s : State) (m : Slot) (c : Context) (n : StationNo) (f : Station → Station) :
    (s.setCtx m c).modStation n f = (s.modStation n f).setCtx m c := rfl

/-- A record taken from the slot served. -/
theorem exec_recordTaking_of_served (h : s.inReset = false) (hs : s.servedSlot = some m)
    (hq : (s.ctx m).intake.queue = rec :: rest) :
    exec .recordTaking s = .next { s.takeHead m rec with rrPointer := m + 1 } := by
  rw [exec_recordTaking h, takeRecord_of_served hs hq]

theorem owns_popQueue (s : State) (m : Slot) (n : StationNo) : (s.popQueue m).owns m n = s.owns m n := by
  rw [owns_eq, owns_eq, ctx_popQueue_same]
  split <;> rfl

end State

/-- Settles O39: the checks of R93 pass one after the other, and the probe is processed. -/
theorem acceptedProbeIsProcessed : Obligations.AcceptedProbeIsProcessed := by
  intro s m rec rest n t1 t2 t3 t4 hreset hserved hq hkind hstation howns hstate hmode h1 h4 h2 h3 hr2 hr3 hsent hstood
    hdelay hmax c probe
  have hmeasure : measureProbe t1 t4 rec.rawT2 rec.rawT3 (s.station n).horizon s.params.maxDelay = .ok probe := by
    rw [measureProbe_eq (h2.trans (extendAgainst_horizon _ _).symm) h3 rfl, if_neg (by omega), if_neg (by omega),
      if_neg (by omega)]
    simp only [Int.toNat_natCast, probe]
    congr 2
    omega
  have hpop := State.popQueue_of_cons hq
  have hjudge : (s.popQueue m).judgeProbe m rec = .ok (n, probe) := by
    rw [State.judgeProbe_eq hstation, State.owns_popQueue, howns, hpop, State.ctx_setCtx_same]
    simp only [Context.popped, State.setCtx_station, State.setCtx_params, h1, h4, hmeasure]
    rw [if_neg (by decide), if_neg hstate, if_neg (not_not.mpr hmode)]
    rfl
  rw [State.exec_recordTaking_of_served hreset hserved hq, State.takeHead_of_probe hkind, State.takeProbe_of_ok hjudge, hpop,
    State.modStation_setCtx, State.modIntake_setCtx]
  rfl

end Sys2Proof.Machine

/-! PROOFS. The correction of a block: the extended stamp, and the parts of a correction by name (R63 to R72). -/

namespace Sys2Proof.Machine

/-- Settles O29: the difference from the reference lies within half of the modulus, an exact half upward. -/
theorem extendedStampIsNearest : Obligations.ExtendedStampIsNearest := by
  intro raw r hraw
  unfold extendStamp
  dsimp only
  split
  · exact ⟨by omega, fun j => by omega⟩
  · exact ⟨by omega, fun j => by omega⟩

section Correction

variable (s : State) (n : StationNo) (rec : IntakeRecord) (capture : Nat)

/-- The extended stamp that the correction of a block reckons with; 0 for an ARRIVAL station. -/
def blockReference : Int := (blockStamp (s.station n) s.timebase.us rec).getD 0

def blockStart : Int := correctedStart (s.station n) rec (blockReference s n rec) capture

def blockTime (i : Nat) : Int := sampleTime (blockStart s n rec capture) (networkPeriod (s.station n)) i

def blockTimes : List Nat := (List.range rec.count).map fun i => (blockTime s n rec capture i).toNat

/-- The uncertainty of a block with the hub term of the moment. -/
def uncertaintyNow : Nat :=
  blockUncertainty (s.station n) rec (blockReference s n rec) s.params (hubTerm s.timebase s.params.hubGrowth)

/-- A block outside the range of network time (R72). -/
def BlockOutOfRange : Prop :=
  ¬(0 ≤ blockReference s n rec ∧ blockReference s n rec < 2 ^ 56) ∨ blockStart s n rec capture < 0
    ∨ 2 ^ 56 ≤ blockTime s n rec capture (rec.count - 1)

variable {s n rec capture} {m : Slot}

theorem correct_eq : correct s m n rec capture =
    if !inTimeRange (blockReference s n rec) || blockStart s n rec capture < 0
        || (maxUs : Int) < blockTime s n rec capture (rec.count - 1) then .error .outOfRange
    else if 8 < (windowsOf s.params (blockTimes s n rec capture)).length then .error .span
    else .ok ⟨(windowsOf s.params (blockTimes s n rec capture)).map
        (makeFragment s m n rec (uncertaintyNow s n rec) (blockTimes s n rec capture)),
      (blockStamp (s.station n) s.timebase.us rec).map Int.toNat,
      (blockTime s n rec capture (rec.count - 1)).toNat⟩ := rfl

theorem outOfRange_iff : (!inTimeRange (blockReference s n rec) || blockStart s n rec capture < 0
    || (maxUs : Int) < blockTime s n rec capture (rec.count - 1)) = true ↔ BlockOutOfRange s n rec capture := by
  have hmax : (maxUs : Int) = 2 ^ 56 - 1 := rfl
  rw [BlockOutOfRange, ← inTimeRange_iff, hmax]
  simp only [Bool.or_eq_true, Bool.not_eq_true', Bool.not_eq_true, decide_eq_true_eq]
  rw [or_assoc]
  refine or_congr_right (or_congr_right ?_)
  omega

theorem correct_of_outOfRange (h : BlockOutOfRange s n rec capture) :
    correct s m n rec capture = .error .outOfRange := by
  rw [correct_eq, if_pos (outOfRange_iff.mpr h)]

theorem correct_of_span (h : ¬BlockOutOfRange s n rec capture)
    (hs : 8 < (windowsOf s.params (blockTimes s n rec capture)).length) :
    correct s m n rec capture = .error .span := by
  rw [correct_eq, if_neg (mt outOfRange_iff.mp h), if_pos hs]

theorem correct_of_ok (h : ¬BlockOutOfRange s n rec capture)
    (hs : (windowsOf s.params (blockTimes s n rec capture)).length ≤ 8) :
    correct s m n rec capture = .ok ⟨(windowsOf s.params (blockTimes s n rec capture)).map
        (makeFragment s m n rec (uncertaintyNow s n rec) (blockTimes s n rec capture)),
      (blockStamp (s.station n) s.timebase.us rec).map Int.toNat,
      (blockTime s n rec capture (rec.count - 1)).toNat⟩ := by
  rw [correct_eq, if_neg (mt outOfRange_iff.mp h), if_neg (Nat.not_lt.mpr hs)]

/-- A correction that is handed back lies in the range of network time and in at most 8 windows (R71, R72). -/
theorem correct_ok {c : Corrected} (h : correct s m n rec capture = .ok c) :
    ¬BlockOutOfRange s n rec capture ∧ (windowsOf s.params (blockTimes s n rec capture)).length ≤ 8
      ∧ c.fragments = (windowsOf s.params (blockTimes s n rec capture)).map
        (makeFragment s m n rec (uncertaintyNow s n rec) (blockTimes s n rec capture)) := by
  by_cases hrange : BlockOutOfRange s n rec capture
  · rw [correct_of_outOfRange hrange] at h
    cases h
  · rcases Nat.lt_or_ge 8 (windowsOf s.params (blockTimes s n rec capture)).length with hs | hs
    · rw [correct_of_span hrange hs] at h
      cases h
    · rw [correct_of_ok hrange hs] at h
      cases h
      exact ⟨hrange, hs, rfl⟩

/-- Every fragment of a correction is of the station that the block is of. -/
theorem correct_ok_station {c : Corrected} (h : correct s m n rec capture = .ok c) :
    ∀ wf ∈ c.fragments, wf.2.station = n := by
  obtain ⟨-, -, hfragments⟩ := correct_ok h
  rw [hfragments]
  simp only [List.mem_map]
  rintro _ ⟨w, -, rfl⟩
  rfl

end Correction

end Sys2Proof.Machine

/-! PROOFS. A BLOCK record that is placed, and its outcome (R90, R91, R110). -/

namespace Sys2Proof.Machine

theorem WindowStep.withStations {s t : State} (h : WindowStep s t) (v : Vector Station 128) :
    WindowStep { s with stations := v } { t with stations := v } := by
  obtain ⟨⟨ws, cs, rfl⟩, hctx⟩ := h
  exact ⟨⟨ws, cs, rfl⟩, hctx⟩

theorem WindowStep.withPointer {s t : State} (h : WindowStep s t) (k : Slot) :
    WindowStep { s with rrPointer := k } { t with rrPointer := k } := by
  obtain ⟨⟨ws, cs, rfl⟩, hctx⟩ := h
  exact ⟨⟨ws, cs, rfl⟩, hctx⟩

theorem WindowStep.withIntake {s t : State} (h : WindowStep s t) (m : Slot) (i : Intake) :
    WindowStep (s.setCtx m { s.ctx m with intake := i }) (t.setCtx m { t.ctx m with intake := i }) := by
  obtain ⟨⟨ws, cs, ht⟩, hctx⟩ := h
  refine ⟨⟨ws, _, by rw [ht]; rfl⟩, fun k => ?_⟩
  obtain ⟨r, p, hk⟩ := hctx k
  refine ⟨r, p, ?_⟩
  by_cases hm : k = m
  · subst hm
    rw [State.ctx_setCtx_same, State.ctx_setCtx_same, hk]
  · rw [State.ctx_setCtx_of_ne hm, State.ctx_setCtx_of_ne hm, hk]

/-- The intake apart, the leaving of the head record raises at most a flag (R81). -/
theorem State.popQueue_step {s : State} {m : Slot} {rec : IntakeRecord} {rest : List IntakeRecord}
    (hq : (s.ctx m).intake.queue = rec :: rest) (i : Intake) :
    WindowStep (s.setCtx m { s.ctx m with intake := i })
      ((s.popQueue m).setCtx m { (s.popQueue m).ctx m with intake := i }) := by
  have hstep : WindowStep (s.setCtx m { s.ctx m with intake := i })
      ((s.setCtx m { s.ctx m with intake := i }).modCtx m fun c => { c with
        attention := { c.attention with pending := ((s.ctx m).popped rest).attention.pending } }) :=
    .of_modCtx fun c => ⟨c.reader, _, rfl⟩
  have hflags : ((s.ctx m).popped rest).attention =
      { (s.ctx m).attention with pending := ((s.ctx m).popped rest).attention.pending } := by
    simp only [Context.popped]
    split <;> rfl
  rw [popQueue_of_cons hq, ctx_setCtx_same, setCtx_setCtx]
  rw [modCtx, ctx_setCtx_same, setCtx_setCtx] at hstep
  dsimp only
  rw [hflags]
  exact hstep

/-- What the placement of fragments of station n leaves: the windows, readers and flags apart, n's fragments-late counter
alone moves, by the number of fragments dropped. -/
def PlacedFor (n : StationNo) (s t : State) (drops : Nat) : Prop :=
  WindowStep { s with stations := t.stations } t ∧ (∀ x : StationNo, x ≠ n → t.station x = s.station x)
    ∧ t.station n = (s.station n).modCounters fun c => { c with fragmentsLate := min 65535 (c.fragmentsLate + drops) }

namespace PlacedFor

variable {n : StationNo} {s t u : State} {d e : Nat}

theorem trans (h : PlacedFor n s t d) (h' : PlacedFor n t u e) : PlacedFor n s u (d + e) := by
  obtain ⟨hstep, hothers, hown⟩ := h
  obtain ⟨hstep', hothers', hown'⟩ := h'
  refine ⟨?_, fun x hx => (hothers' x hx).trans (hothers x hx), ?_⟩
  · exact (hstep.withStations u.stations).trans hstep'
  · rw [hown', hown]
    simp only [Station.modCounters]
    congr 2
    omega

theorem of_windowStep (hlate : (s.station n).counters.fragmentsLate ≤ 65535) (h : WindowStep s t) : PlacedFor n s t 0 := by
  refine ⟨?_, fun x _ => h.station x, ?_⟩
  · rw [h.stations]
    exact h
  · rw [h.station n]
    simp only [Station.modCounters, Nat.add_zero, Nat.min_eq_right hlate]

theorem late_le (h : PlacedFor n s t d) : (t.station n).counters.fragmentsLate ≤ 65535 := by
  obtain ⟨-, -, hown⟩ := h
  rw [hown]
  exact Nat.min_le_left ..

theorem dropFragment {f : Fragment} (hf : f.station = n) : PlacedFor n s (s.dropFragment f) 1 := by
  subst hf
  exact ⟨.refl _, fun x hx => State.station_modStation_of_ne hx s _, State.station_modStation_same ..⟩

/-- One fragment placed: entered, or dropped and counted. -/
theorem placeOne {wf : Nat × Fragment} (hlate : (s.station n).counters.fragmentsLate ≤ 65535) (hf : wf.2.station = n)
    (entered dropped : Nat) : ∃ a b : Nat, (State.placeOne (s, entered, dropped) wf).2 = (entered + a, dropped + b)
      ∧ a + b = 1 ∧ PlacedFor n s (State.placeOne (s, entered, dropped) wf).1 b := by
  unfold State.placeOne
  dsimp only
  split
  · exact ⟨1, 0, rfl, rfl, .of_windowStep hlate
      ((State.modWindow_step s wf.1 _).trans (State.completenessCheck_step _ wf.1))⟩
  · exact ⟨0, 1, rfl, rfl, .dropFragment hf⟩

theorem foldl_placeOne (list : List (Nat × Fragment)) (hf : ∀ wf ∈ list, wf.2.station = n) :
    ∀ (s : State) (entered dropped : Nat), (s.station n).counters.fragmentsLate ≤ 65535 →
      ∃ a b : Nat, (list.foldl State.placeOne (s, entered, dropped)).2 = (entered + a, dropped + b)
        ∧ a + b = list.length ∧ PlacedFor n s (list.foldl State.placeOne (s, entered, dropped)).1 b := by
  induction list with
  | nil => exact fun s entered dropped hlate => ⟨0, 0, rfl, rfl, .of_windowStep hlate (.refl s)⟩
  | cons wf list ih =>
    intro s entered dropped hlate
    obtain ⟨a, b, hcount, hone, hplaced⟩ := placeOne hlate (hf wf List.mem_cons_self) entered dropped
    rw [List.foldl_cons, ← Prod.eta (State.placeOne (s, entered, dropped) wf), hcount]
    obtain ⟨a', b', hcount', hlist, hplaced'⟩ :=
      ih (fun x hx => hf x (List.mem_cons_of_mem _ hx)) (State.placeOne (s, entered, dropped) wf).1 (entered + a)
        (dropped + b) hplaced.late_le
    refine ⟨a + a', b + b', ?_, ?_, hplaced.trans hplaced'⟩
    · rw [hcount', Nat.add_assoc, Nat.add_assoc]
    · rw [List.length_cons]
      omega

theorem placeFragments {list : List (Nat × Fragment)} (hf : ∀ wf ∈ list, wf.2.station = n)
    (hlate : (s.station n).counters.fragmentsLate ≤ 65535) {entered dropped : Nat}
    (h : s.placeFragments list = (t, some (entered, dropped))) :
    entered + dropped = list.length ∧ PlacedFor n s t dropped := by
  unfold State.placeFragments at h
  dsimp only at h
  split at h
  · cases h
  · have hreclaim := of_windowStep hlate
      (State.reclaimFor_step (list.filter fun wf => s.holdsOpen wf.1).length 64 s)
    obtain ⟨a, b, hcount, hlist, hplaced⟩ := foldl_placeOne list hf _ 0 0 hreclaim.late_le
    obtain ⟨rfl, hnumbers⟩ := Prod.mk.inj h
    obtain ⟨ha, hb⟩ := Prod.mk.inj (hcount.symm.trans (Option.some.inj hnumbers))
    rw [Nat.zero_add] at ha hb
    subst ha hb
    exact ⟨hlist, Nat.zero_add b ▸ hreclaim.trans hplaced⟩

end PlacedFor

namespace Station

/-- What the outcome of a placed block makes of its station. -/
def afterOutcome (r : Station) (rec : IntakeRecord) (stamp : Option Nat) (entered now : Nat) : Station :=
  if entered = 0 then r.afterBlock rec stamp else (r.afterBlock rec stamp).afterAccepted now

variable (r : Station) (rec : IntakeRecord) (stamp : Option Nat) (entered now : Nat)

theorem mark_eq (k : Nat) : r.mark k = { r with
    sequence := some (markSequence r.sequence k).1
    counters := { r.counters with
      sequenceGaps := min 65535 (r.counters.sequenceGaps + (markSequence r.sequence k).2) } } := rfl

theorem afterAccepted_eq : r.afterAccepted now = { r with
    counters := { r.counters with blocksAccepted := min 65535 (r.counters.blocksAccepted + 1) }
    lastArrival := now
    state := if r.state = .silent then r.serviceState else r.state } := rfl

theorem afterOutcome_eq : r.afterOutcome rec stamp entered now = { r with
    sequence := some (markSequence r.sequence rec.sequence).1
    horizon := match stamp with | some x => some (max (r.horizon.getD 0) x) | none => r.horizon
    lastLock := if r.config.mode = .satellite then rec.lockFlag else r.lastLock
    lastSeconds := if r.config.mode = .satellite then rec.seconds else r.lastSeconds
    lastArrival := if entered = 0 then r.lastArrival else now
    state := if entered ≠ 0 ∧ r.state = .silent then r.serviceState else r.state
    counters := { r.counters with
      blocksAccepted := if entered = 0 then r.counters.blocksAccepted else min 65535 (r.counters.blocksAccepted + 1)
      sequenceGaps := min 65535 (r.counters.sequenceGaps + (markSequence r.sequence rec.sequence).2) } } := by
  have hblock : r.afterBlock rec stamp = _ := afterBlock_eq r rec stamp
  rw [afterOutcome, afterAccepted_eq, hblock, mark_eq]
  by_cases he : entered = 0
  · cases stamp <;> simp [he]
  · cases stamp <;> simp [he, serviceState]

end Station

/-- The slot's count of the outcome of a placed block (R90). -/
def Intake.withOutcome (i : Intake) (entered dropped : Nat) : Intake := { i with
  accepted := if entered ≠ 0 ∧ dropped = 0 then min 65535 (i.accepted + 1) else i.accepted
  partLate := if entered ≠ 0 ∧ dropped ≠ 0 then min 65535 (i.partLate + 1) else i.partLate
  late := if entered = 0 then min 65535 (i.late + 1) else i.late }

namespace State

variable {s s1 : State} {m : Slot} {n : StationNo} {rec : IntakeRecord}

theorem blockOutcome_eq (stamp : Option Nat) (entered dropped : Nat) :
    s.blockOutcome m n rec stamp entered dropped =
      (s.modStation n fun r => r.afterOutcome rec stamp entered s.timebase.us).modIntake m fun i =>
        i.withOutcome entered dropped := by
  unfold blockOutcome
  dsimp only
  split
  next he => simp [Station.afterOutcome, Intake.withOutcome, he, raise16]
  next he =>
    rw [modStation_modStation]
    by_cases hd : dropped = 0
    · simp [Station.afterOutcome, Intake.withOutcome, he, hd, raise16]
    · simp [Station.afterOutcome, Intake.withOutcome, he, hd, raise16]

/-- The station table and slot m's intake replaced, and the pointer set past m, at the end of a taking. -/
def afterTaking (s : State) (m : Slot) (v : Vector Station 128) (i : Intake) : State := { s with
  rrPointer := m + 1
  stations := v
  contexts := s.contexts.set m { s.ctx m with intake := i } }

theorem intake_afterTaking (s : State) (m : Slot) (v : Vector Station 128) (i : Intake) :
    ((s.afterTaking m v i).ctx m).intake = i :=
  congrArg Context.intake (ctx_setCtx_same s m { s.ctx m with intake := i })

theorem takeHead_of_block (hw : rec.wellFormedKind = some .block) : s.takeHead m rec = (s.popQueue m).takeBlock m rec := by
  rw [takeHead, hw]

theorem takeBlock_of_placed {k : Corrected} {entered dropped : Nat} (hj : s.judgeBlock m rec = .ok (n, k))
    (hp : s.placeFragments k.fragments = (s1, some (entered, dropped))) :
    s.takeBlock m rec = s1.blockOutcome m n rec k.stamp entered dropped := by
  rw [takeBlock, hj]
  dsimp only
  rw [hp]

end State

/-- Settles O38: the placement leaves the station apart from its late count, and the outcome then changes it. -/
theorem placedBlockHasItsOutcome : Obligations.PlacedBlockHasItsOutcome := by
  intro s m rec rest n k s1 entered dropped hreset hgood hserved hq hkind hjudge hplace i r
  obtain ⟨capture, hcorrect⟩ := State.judgeBlock_ok hjudge
  have hpop := State.popQueue_of_cons hq
  have hlate : ((s.popQueue m).station n).counters.fragmentsLate ≤ 65535 := by
    obtain ⟨-, -, -, -, -, -, ⟨-, hlate, -⟩, -⟩ := hgood n
    rw [hpop]
    exact hlate
  obtain ⟨hcount, hstep, hothers, hown⟩ := PlacedFor.placeFragments (correct_ok_station hcorrect) hlate hplace
  have hexec : exec .recordTaking s = .next (s1.afterTaking m
      (s1.modStation n fun r => r.afterOutcome rec k.stamp entered s1.timebase.us).stations
      ((s1.ctx m).intake.withOutcome entered dropped)) := by
    rw [State.exec_recordTaking_of_served hreset hserved hq, State.takeHead_of_block hkind,
      State.takeBlock_of_placed hjudge hplace, State.blockOutcome_eq]
    rfl
  have hintake : (s1.ctx m).intake = ((s.ctx m).popped rest).intake := by
    rw [hstep.intake m]
    exact congrArg Context.intake ((congrArg (·.ctx m) hpop).trans (State.ctx_setCtx_same ..))
  have hpopTime : (s.popQueue m).timebase = s.timebase := (State.popQueue_changes s m).timebase (by simp)
  have htime : s1.timebase = s.timebase := hstep.timebase.trans hpopTime
  have hstation (x : StationNo) : (s.popQueue m).station x = s.station x := congrArg (·.station x) hpop
  refine ⟨_, hexec, ?_, ?_, hcount, ?_, fun x hx => ?_, ?_⟩
  · rw [State.intake_afterTaking]
    exact (((State.popQueue_step hq _).withStations _).trans ((hstep.withIntake m _).withStations _)).withPointer (m + 1)
  · rw [State.intake_afterTaking]
    rfl
  · rw [State.intake_afterTaking, hintake]
    rfl
  · change (s1.modStation n fun r => r.afterOutcome rec k.stamp entered s1.timebase.us).station x = s.station x
    exact (State.station_modStation_of_ne hx ..).trans ((hothers x hx).trans (hstation x))
  · change (s1.modStation n fun r => r.afterOutcome rec k.stamp entered s1.timebase.us).station n = _
    rw [State.station_modStation_same, hown, hstation, htime, Station.afterOutcome_eq, Station.serviceState_eq]
    rfl

end Sys2Proof.Machine

/-! PROOFS. Records: their fields, the checks of a BLOCK record in order, and what a refusal leaves (R84 to R93, R176). -/

namespace Sys2Proof.Machine

theorem field_eq (v : Word) (lo width : Nat) : field v lo width = v.toNat / 2 ^ lo % 2 ^ width := by
  rw [field, Nat.shiftRight_eq_div_pow]

/-- A field that reaches to the top of its word needs no cut. -/
theorem field_top (v : Word) {lo width : Nat} (h : lo + width = 32) : field v lo width = v.toNat / 2 ^ lo := by
  rw [field_eq, Nat.mod_eq_of_lt]
  rw [Nat.div_lt_iff_lt_mul (Nat.two_pow_pos lo), ← Nat.pow_add, Nat.add_comm, h]
  exact v.isLt

theorem field_low (v : Word) (width : Nat) : field v 0 width = v.toNat % 2 ^ width := by
  rw [field_eq, pow_zero, Nat.div_one]

namespace IntakeRecord

variable (rec : IntakeRecord)

theorem kind_eq_block : rec.kind = some .block ↔ (rec[(0 : Fin 8)]).toNat / 2 ^ 28 = 1 := by
  rw [kind, field_top _ (by decide), word]
  split <;> simp_all

theorem kind_eq_probe : rec.kind = some .probe ↔ (rec[(0 : Fin 8)]).toNat / 2 ^ 28 = 2 := by
  rw [kind, field_top _ (by decide), word]
  split <;> simp_all

theorem stamp_eq : rec.stamp = 2 ^ 32 * ((rec[(2 : Fin 8)]).toNat % 256) + (rec[(3 : Fin 8)]).toNat := by
  rw [stamp, field_low]
  rfl

theorem rawT2_eq : rec.rawT2 = 2 ^ 32 * ((rec[(1 : Fin 8)]).toNat / 256 % 256) + (rec[(2 : Fin 8)]).toNat := by
  rw [rawT2, field_eq]
  rfl

theorem rawT3_eq : rec.rawT3 = 2 ^ 32 * ((rec[(1 : Fin 8)]).toNat % 256) + (rec[(3 : Fin 8)]).toNat := by
  rw [rawT3, field_low]
  rfl

theorem lockFlag_eq : rec.lockFlag = decide ((rec[(1 : Fin 8)]).toNat / 32768 % 2 = 1) := by
  rw [lockFlag, word, BitVec.getLsbD, Nat.testBit_eq_decide_div_mod_eq]

end IntakeRecord

theorem bind_ite_error {ε α β : Type} {c : Prop} [Decidable c] (e : ε) (x : Except ε α) (f : α → Except ε β) :
    (if c then .error e else x).bind f = if c then .error e else x.bind f := by
  split <;> rfl

theorem map_ite_error {ε α β : Type} {c : Prop} [Decidable c] (e : ε) (x : Except ε α) (f : α → β) :
    (if c then .error e else x).map f = if c then .error e else x.map f := by
  split <;> rfl

namespace State

variable {s t : State} {m : Slot} {rec : IntakeRecord} {n : StationNo}

/-- Steps 2 to 8 of Table 5-1 for a record that names a station. -/
theorem checkBlock_eq (h : rec.station = n.val) :
    s.checkBlock m rec =
      if s.part = .setup then .error .state
      else if s.owns m n = false then .error .notOwner
      else if (s.station n).state = .disabled then .error .disabled
      else if rec.rateCode ≠ (s.station n).config.rateCode then .error .rate
      else if rec.count = 0 ∨ 512 < rec.count then .error .count
      else if (s.station n).config.mode = .arrival ∧ (s.ctx m).capture.lookup rec.captureSeq = none then
        .error .staleCapture
      else if (s.station n).config.mode = .probed ∧ (s.station n).active = none then .error .noModel
      else .ok (n,
        if (s.station n).config.mode = .arrival then ((s.ctx m).capture.lookup rec.captureSeq).getD 0 else 0) := by
  rw [checkBlock, stationOf_eq_some.mpr h]
  simp only [Bool.not_eq_true']
  congr 5
  cases (s.station n).config.mode with
  | satellite => simp
  | probed => cases (s.station n).active <;> simp
  | arrival => cases (s.ctx m).capture.lookup rec.captureSeq <;> simp

theorem checkBlock_of_noStation (h : 127 < rec.station) :
    s.checkBlock m rec = .error (if s.part = .setup then .state else .notOwner) := by
  rw [checkBlock, stationOf_eq_none.mpr h]
  split <;> rfl

/-- Steps 10 to 12 of Table 5-1, after the correction. -/
def classed (s : State) (rec : IntakeRecord) (n : StationNo) (c : Corrected) : Except RefusalCode (StationNo × Corrected) :=
  if s.params.windowStart (s.params.windowOf s.timebase.us + 2) ≤ c.lastTime then .error .future
  else
    match classifySequence (s.station n).sequence rec.sequence with
    | some e => .error e
    | none => if s.alreadyFiled n rec.sequence c.fragments then .error .duplicate else .ok (n, c)

theorem judgeBlock_eq (s : State) (m : Slot) (rec : IntakeRecord) :
    s.judgeBlock m rec = (s.checkBlock m rec).bind fun p => (correct s m p.1 rec p.2).bind (s.classed rec p.1) := by
  unfold judgeBlock
  cases s.checkBlock m rec with
  | error e => rfl
  | ok p =>
    obtain ⟨n, capture⟩ := p
    cases hc : correct s m n rec capture with
    | error e => simp only [hc, Except.bind]
    | ok c =>
      simp only [hc, Except.bind]
      rfl

theorem alreadyFiled_iff (h : s.RingGood) (n : StationNo) (seq : Nat) (list : List (Nat × Fragment)) :
    s.alreadyFiled n seq list = true ↔
      ∃ wf ∈ list, ∃ w ∈ s.held, w.number = wf.1 ∧ ∃ f ∈ w.fragments, f.station = n ∧ f.sequence = seq := by
  simp only [alreadyFiled, List.any_eq_true, Option.any_eq_true, Bool.and_eq_true, decide_eq_true_eq, beq_iff_eq]
  refine exists_congr fun wf => and_congr_right fun _ => ⟨?_, ?_⟩
  · rintro ⟨w, hw, hf⟩
    obtain ⟨hheld, hnumber⟩ := findWindow_some hw
    exact ⟨w, hheld, hnumber, hf⟩
  · rintro ⟨w, hheld, hnumber, hf⟩
    exact ⟨w, hnumber ▸ findWindow_of_mem h.distinct hheld, hf⟩

/-- Step 12's last check, on the windows held (R90). -/
def filed (s : State) (rec : IntakeRecord) (n : StationNo) (c : Corrected) : Except RefusalCode (StationNo × Corrected) :=
  if ∃ wf ∈ c.fragments, ∃ w ∈ s.held, w.number = wf.1
      ∧ ∃ f ∈ w.fragments, f.station = n ∧ f.sequence = rec.sequence then .error .duplicate
  else .ok (n, c)

theorem classed_eq (hring : s.RingGood) (rec : IntakeRecord) (n : StationNo) (c : Corrected) :
    s.classed rec n c =
      if (s.timebase.us / (1000000 * s.params.windowLength) + 2) * (1000000 * s.params.windowLength) ≤ c.lastTime then
        .error .future
      else match (s.station n).sequence with
        | none => s.filed rec n c
        | some q =>
          let d := (((q.last : Int) - rec.sequence) % 65536).toNat
          if d = 0 then .error .duplicate
          else if d ≤ 32 then (if rec.sequence ∈ q.seen then .error .duplicate else s.filed rec n c)
          else if d ≤ 32767 then .error .staleSeq
          else s.filed rec n c := by
  have hfiled : (if s.alreadyFiled n rec.sequence c.fragments then .error .duplicate else .ok (n, c)) = s.filed rec n c :=
    if_congr (alreadyFiled_iff hring n rec.sequence c.fragments) rfl rfl
  rw [classed, hfiled]
  refine if_congr Iff.rfl rfl ?_
  cases (s.station n).sequence with
  | none => rfl
  | some q =>
    have hsplit (d : Nat) :
        (match (if d = 0 then some .duplicate
            else if d ≤ 32 then (if q.seen.contains rec.sequence then some .duplicate else none)
            else if d ≤ 32767 then some RefusalCode.staleSeq else none) with
          | some e => .error e
          | none => s.filed rec n c) =
        if d = 0 then .error .duplicate
        else if d ≤ 32 then (if rec.sequence ∈ q.seen then .error .duplicate else s.filed rec n c)
        else if d ≤ 32767 then .error .staleSeq
        else s.filed rec n c := by
      split_ifs <;> simp_all
    exact hsplit (behind q.last rec.sequence)

theorem takeHead_of_malformed (hw : rec.wellFormedKind = none) : s.takeHead m rec = s.stopMalformed m rec := by
  rw [takeHead, hw]

theorem takeBlock_of_error {code : RefusalCode} (h : s.judgeBlock m rec = .error code) :
    s.takeBlock m rec = s.refuseBlock m rec code := by
  rw [takeBlock, h]

theorem takeBlock_of_poolFull {k : Corrected} (hj : s.judgeBlock m rec = .ok (n, k))
    (hp : s.placeFragments k.fragments = (t, none)) : s.takeBlock m rec = t.refuseBlock m rec .poolFull := by
  rw [takeBlock, hj]
  dsimp only
  rw [hp]

/-- A placement that finds no room has only reclaimed windows (R107). -/
theorem placeFragments_none_step {list : List (Nat × Fragment)} (h : s.placeFragments list = (t, none)) :
    WindowStep s t := by
  unfold placeFragments at h
  dsimp only at h
  split at h
  · obtain ⟨rfl, -⟩ := Prod.mk.inj h
    exact reclaimFor_step _ 64 s
  · cases h

theorem countedAt_congr (h : ∀ n : StationNo, s.station n = t.station n) (f : StationCounters → StationCounters) :
    s.countedAt rec f = t.countedAt rec f := by
  simp only [countedAt, h]

theorem refuseBlock_setCtx (s : State) (m : Slot) (c : Context) (rec : IntakeRecord) (code : RefusalCode) :
    (s.setCtx m c).refuseBlock m rec code = { s with
      stations := s.countedAt rec fun x => { x with
        refusals := min 65535 (x.refusals + 1)
        duplicates := if code = .duplicate then min 65535 (x.duplicates + 1) else x.duplicates }
      contexts := s.contexts.set m { c with
      intake := { c.intake with
        refused := min 65535 (c.intake.refused + 1)
        lastRefusal := some (.refused code .block rec.station rec.tag) } } } := by
  rw [refuseBlock, countAtStation_setCtx, refuseAtSlot_setCtx, countAtStation_eq]
  rfl

theorem refuseProbe_setCtx (s : State) (m : Slot) (c : Context) (rec : IntakeRecord) (code : RefusalCode) :
    (s.setCtx m c).refuseProbe m rec code = { s with
      stations := s.countedAt rec fun x => { x with
        refusals := min 65535 (x.refusals + 1), probesRefused := min 65535 (x.probesRefused + 1) }
      contexts := s.contexts.set m { c with
      intake := { c.intake with
        refused := min 65535 (c.intake.refused + 1)
        lastRefusal := some (.refused code .probe rec.station rec.tag) } } } := by
  rw [refuseProbe, countAtStation_setCtx, refuseAtSlot_setCtx, countAtStation_eq]
  rfl

end State

/-- Settles O37: fields, checks in order, and the state that a refusal leaves. -/
theorem recordsAreJudgedInOrderAndRefused : Obligations.RecordsAreJudgedInOrderAndRefused := by
  refine ⟨fun rec => ?_, fun c q t => Capture.lookup_eq_some c q t,
    fun s m rec hring => ⟨fun hnone => ?_, fun n hn => ?_⟩,
    fun s m rec rest hreset hserved hq => ?_⟩
  · intro w sound
    refine ⟨?_, ?_, ?_, ?_, rfl⟩
    · rw [IntakeRecord.wellFormedKind_eq_some, IntakeRecord.checkOk_iff, IntakeRecord.kind_eq_block]
    · rw [IntakeRecord.wellFormedKind_eq_some, IntakeRecord.checkOk_iff, IntakeRecord.kind_eq_probe]
    · exact ⟨field_eq .., field_eq .., field_low .., field_top _ (by decide),
        IntakeRecord.lockFlag_eq rec, field_low .., field_top _ (by decide),
        IntakeRecord.stamp_eq rec⟩
    · exact ⟨field_eq .., field_low .., IntakeRecord.rawT2_eq rec, IntakeRecord.rawT3_eq rec⟩
  · rw [State.judgeBlock_eq, State.checkBlock_of_noStation hnone, State.judgeProbe_of_noStation hnone]
    exact ⟨rfl, rfl⟩
  · intro r capture classed
    refine ⟨?_, ?_⟩
    · rw [State.judgeBlock_eq, State.checkBlock_eq hn]
      simp only [bind_ite_error]
      refine if_congr Iff.rfl rfl (if_congr Iff.rfl rfl (if_congr Iff.rfl rfl (if_congr Iff.rfl rfl (if_congr Iff.rfl rfl
        (if_congr Iff.rfl rfl (if_congr Iff.rfl rfl ?_))))))
      dsimp only [Except.bind]
      cases correct s m n rec (if r.config.mode = .arrival then capture.getD 0 else 0) with
      | error code => rfl
      | ok c => exact State.classed_eq hring rec n c
    · rw [State.judgeProbe_eq hn]
      refine if_congr Iff.rfl rfl (if_congr Iff.rfl rfl (if_congr Iff.rfl rfl ?_))
      cases (s.ctx m).capture.lookup rec.sendSeq with
      | none => rfl
      | some t1 =>
        cases (s.ctx m).capture.lookup rec.receiveSeq with
        | none => rfl
        | some t4 =>
          dsimp only
          rw [measureProbe_eq (extendAgainst_horizon ..).symm rfl rfl]
          simp only [map_ite_error]
          rfl
  · intro c opened left counted blockCount
    have hpop := State.popQueue_of_cons hq
    rw [State.exec_recordTaking_of_served hreset hserved hq]
    refine ⟨hpop, fun hkind => ?_, fun code hkind hjudge => ?_, fun code hkind hjudge => ?_,
      fun n k s1 hkind hjudge hplace => ?_⟩
    · rw [State.takeHead_of_malformed hkind, State.stopMalformed_eq]
      rfl
    · rw [State.takeHead_of_block hkind, State.takeBlock_of_error hjudge, hpop, State.refuseBlock_setCtx]
      rfl
    · rw [State.takeHead_of_probe hkind, State.takeProbe_of_error hjudge, hpop, State.refuseProbe_setCtx]
      rfl
    · rw [State.takeHead_of_block hkind, State.takeBlock_of_poolFull hjudge hplace]
      have hstep := State.placeFragments_none_step hplace
      have hstation (x : StationNo) : s1.station x = s.station x := (hstep.station x).trans (congrArg (·.station x) hpop)
      have hintake : (s1.ctx m).intake = ((s.ctx m).popped rest).intake := by
        rw [hstep.intake m, hpop, State.ctx_setCtx_same]
      have hrefused := State.refuseBlock_setCtx s1 m (s1.ctx m) rec .poolFull
      rw [State.setCtx_ctx_self, State.countedAt_congr hstation, hintake] at hrefused
      rw [hrefused]
      rfl

end Sys2Proof.Machine

/-! PROOFS. The windows of a block and its parts in them (R70, R71). -/

namespace Sys2Proof.Machine

/-- A list whose values ascend falls into the part below a value, the part at it and the part above it. -/
theorem eq_below_append_at_append_above {α : Type} {f : α → Nat} {l : List α} (h : (l.map f).Pairwise (· ≤ ·))
    (w : Nat) :
    l = (l.filter fun t => f t < w) ++ ((l.filter fun t => f t == w) ++ l.filter fun t => w < f t) := by
  induction l with
  | nil => rfl
  | cons a l ih =>
    rw [List.map_cons, List.pairwise_cons] at h
    obtain ⟨hhead, htail⟩ := h
    have hle (t : α) (ht : t ∈ l) : f a ≤ f t := hhead _ (List.mem_map_of_mem ht)
    have hrest := ih htail
    rcases lt_trichotomy (f a) w with ha | ha | ha
    · rw [List.filter_cons_of_pos (by simpa using ha), List.filter_cons_of_neg (by simpa using ha.ne),
        List.filter_cons_of_neg (by simpa using ha.le), List.cons_append, ← hrest]
    · have hbelow : (l.filter fun t => f t < w) = [] := List.filter_eq_nil_iff.mpr fun t ht => by
        have := hle t ht
        simp
        omega
      rw [hbelow, List.nil_append] at hrest
      rw [List.filter_cons_of_neg (by simp [ha]), hbelow, List.nil_append, List.filter_cons_of_pos (by simpa using ha),
        List.filter_cons_of_neg (by simp [ha]), List.cons_append, ← hrest]
    · have hbelow : (l.filter fun t => f t < w) = [] := List.filter_eq_nil_iff.mpr fun t ht => by
        have := hle t ht
        simp
        omega
      have hat : (l.filter fun t => f t == w) = [] := List.filter_eq_nil_iff.mpr fun t ht => by
        have := hle t ht
        simp
        omega
      rw [hbelow, hat, List.nil_append, List.nil_append] at hrest
      rw [List.filter_cons_of_neg (by simpa using ha.le), hbelow, List.nil_append,
        List.filter_cons_of_neg (by simpa using ha.ne'), hat, List.nil_append,
        List.filter_cons_of_pos (by simpa using ha), ← hrest]

section Windows

variable {p : Params} {times : List Nat} {w : Nat}

theorem mem_windowsOf : w ∈ windowsOf p times ↔ ∃ t ∈ times, p.windowOf t = w := by
  induction times with
  | nil => simp [windowsOf]
  | cons t rest ih =>
    rw [List.exists_mem_cons_iff, ← ih, windowsOf]
    cases windowsOf p rest with
    | nil => simp [eq_comm]
    | cons v ws =>
      dsimp only
      split
      · subst v
        simp [eq_comm]
      · simp [eq_comm]

theorem windowsOf_ascending (h : (times.map p.windowOf).Pairwise (· ≤ ·)) : (windowsOf p times).Pairwise (· < ·) := by
  induction times with
  | nil => exact .nil
  | cons t rest ih =>
    rw [List.map_cons, List.pairwise_cons] at h
    obtain ⟨hhead, htail⟩ := h
    have hrest := ih htail
    have hle : ∀ v ∈ windowsOf p rest, p.windowOf t ≤ v := fun v hv => by
      obtain ⟨x, hx, rfl⟩ := mem_windowsOf.mp hv
      exact hhead _ (List.mem_map_of_mem hx)
    rw [windowsOf]
    cases hws : windowsOf p rest with
    | nil => exact List.pairwise_singleton ..
    | cons v ws =>
      rw [hws] at hrest hle
      dsimp only
      split
      · exact hrest
      next hne =>
        refine .cons (fun x hx => ?_) hrest
        have hv : p.windowOf t < v := lt_of_le_of_ne (hle v List.mem_cons_self) hne
        rcases List.mem_cons.mp hx with rfl | hx
        · exact hv
        · exact hv.trans (List.rel_of_pairwise_cons hrest hx)

theorem windowsOf_perm (h : (times.map p.windowOf).Pairwise (· ≤ ·)) :
    (windowsOf p times).Perm (times.map p.windowOf).dedup := by
  refine (List.perm_ext_iff_of_nodup (windowsOf_ascending h).nodup (List.nodup_dedup _)).mpr fun w => ?_
  rw [mem_windowsOf, List.mem_dedup, List.mem_map]

/-- The number of samples in window w (R71). -/
theorem runIn_count (p : Params) (times : List Nat) (w : Nat) :
    (runIn p times w).2.1 = (times.map p.windowOf).count w := by
  rw [List.count, List.countP_map, List.countP_eq_length_filter]
  rfl

/-- The samples of a block before window w. -/
theorem runIn_first (hp : 0 < p.windowLength) (times : List Nat) (w : Nat) :
    (runIn p times w).1 = (times.map p.windowOf).countP fun v => decide (v < w) := by
  rw [List.countP_map]
  refine List.countP_congr fun t _ => ?_
  simp only [Function.comp_apply, decide_eq_true_eq]
  exact (Nat.div_lt_iff_lt_mul (Nat.mul_pos (by decide) hp)).symm

/-- Below a window of the block its samples stand in the windows before it. -/
theorem sum_counts_before (h : (times.map p.windowOf).Pairwise (· ≤ ·)) {before after : List Nat}
    (hs : windowsOf p times = before ++ w :: after) :
    (before.map fun v => (times.map p.windowOf).count v).sum = (times.map p.windowOf).countP fun v => decide (v < w) := by
  have hbefore : (windowsOf p times).filter (fun v => decide (v < w)) = before := by
    have hascending := windowsOf_ascending h
    rw [hs, List.pairwise_append, List.pairwise_cons] at hascending
    obtain ⟨-, ⟨hafter, -⟩, hbelow⟩ := hascending
    rw [hs, List.filter_append, List.filter_cons_of_neg (by simp),
      List.filter_eq_self.mpr fun v hv => decide_eq_true (hbelow v hv w List.mem_cons_self),
      List.filter_eq_nil_iff.mpr fun v hv => by simpa using (hafter v hv).le, List.append_nil]
  rw [← hbefore, (((windowsOf_perm h).filter _).map _).sum_eq, List.sum_map_count_dedup_filter_eq_countP]

theorem sum_counts (h : (times.map p.windowOf).Pairwise (· ≤ ·)) :
    ((windowsOf p times).map fun v => (times.map p.windowOf).count v).sum = times.length := by
  rw [((windowsOf_perm h).map _).sum_eq, List.sum_map_count_dedup_eq_length, List.length_map]

/-- The first and the last sample of a block in a window that holds one of its samples (R71). -/
theorem runIn_times (hp : 0 < p.windowLength) (h : (times.map p.windowOf).Pairwise (· ≤ ·))
    (hw : w ∈ windowsOf p times) :
    1 ≤ (runIn p times w).2.1
      ∧ times[(runIn p times w).1]? = some (runIn p times w).2.2.1
      ∧ times[(runIn p times w).1 + (runIn p times w).2.1 - 1]? = some (runIn p times w).2.2.2
      ∧ p.windowOf (runIn p times w).2.2.1 = w ∧ p.windowOf (runIn p times w).2.2.2 = w := by
  have hfirst : (runIn p times w).1 = (times.filter fun t => p.windowOf t < w).length := by
    rw [runIn_first hp, List.countP_map, List.countP_eq_length_filter]
    rfl
  have hsplit := eq_below_append_at_append_above h w
  obtain ⟨t, ht, hwt⟩ := mem_windowsOf.mp hw
  have hmem : t ∈ times.filter fun t => p.windowOf t == w := List.mem_filter.mpr ⟨ht, by simpa using hwt⟩
  have hinside (j : Nat) (hj : j < (times.filter fun t => p.windowOf t == w).length) :
      times[(runIn p times w).1 + j]? = (times.filter fun t => p.windowOf t == w)[j]? := by
    rw [hfirst]
    refine (congrArg (·[(times.filter fun t => p.windowOf t < w).length + j]?) hsplit).trans ?_
    rw [List.getElem?_append_right (Nat.le_add_right ..), Nat.add_sub_cancel_left, List.getElem?_append_left hj]
  have hwindow : ∀ x ∈ times.filter fun t => p.windowOf t == w, p.windowOf x = w := fun x hx => by
    simpa using (List.mem_filter.mp hx).2
  change 1 ≤ (times.filter fun t => p.windowOf t == w).length
    ∧ times[(runIn p times w).1]? = some ((times.filter fun t => p.windowOf t == w).headD 0)
    ∧ times[(runIn p times w).1 + (times.filter fun t => p.windowOf t == w).length - 1]? =
      some ((times.filter fun t => p.windowOf t == w).getLastD 0)
    ∧ p.windowOf ((times.filter fun t => p.windowOf t == w).headD 0) = w
    ∧ p.windowOf ((times.filter fun t => p.windowOf t == w).getLastD 0) = w
  generalize (times.filter fun t => p.windowOf t == w) = inside at hmem hinside hwindow ⊢
  have hpos : 1 ≤ inside.length := List.length_pos_of_mem hmem
  have hhead : inside[0]? = some (inside.headD 0) := by
    cases inside with
    | nil => exact absurd hmem List.not_mem_nil
    | cons a l => rfl
  have hlast : inside[inside.length - 1]? = some (inside.getLastD 0) := by
    rw [← List.getLast?_eq_getElem?, List.getLastD_eq_getLast?]
    cases inside with
    | nil => exact absurd hmem List.not_mem_nil
    | cons a l => rw [List.getLast?_cons, Option.getD_some]
  refine ⟨hpos, (hinside 0 hpos).trans hhead, ?_, hwindow _ (List.mem_of_getElem? hhead),
    hwindow _ (List.mem_of_getElem? hlast)⟩
  rw [Nat.add_sub_assoc hpos, hinside _ (by omega), hlast]

end Windows

/-! ### Sample times ascend -/

/-- A rounded quotient is no greater than a bound that the quotient keeps. -/
theorem roundDiv_natAbs_le {x : Int} {b k : Nat} (hb : 0 < b) (h : x.natAbs ≤ k * b) : (roundDiv x b).natAbs ≤ k := by
  have hsign : (roundDiv x b).natAbs ≤ (2 * x.natAbs + b) / (2 * b) := by
    have hunit : x.sign.natAbs ≤ 1 := by
      rcases Int.sign_trichotomy x with h | h | h <;> rw [h] <;> decide
    rw [roundDiv, Int.natAbs_mul, Int.natAbs_natCast]
    exact (Nat.mul_le_mul_right _ hunit).trans_eq (Nat.one_mul _)
  refine hsign.trans ?_
  rw [← Nat.lt_succ_iff, Nat.div_lt_iff_lt_mul (by omega)]
  nlinarith

theorem periodDeviation_natAbs_le {r : Station} (h : ∀ a ∈ r.active, -200000 ≤ a.drift ∧ a.drift ≤ 200000) :
    (periodDeviation r).natAbs ≤ nominalPeriod r.config.rateCode * 65536 := by
  unfold periodDeviation
  split
  next a _ ha =>
    obtain ⟨hlow, hhigh⟩ := h a ha
    refine roundDiv_natAbs_le (by decide) ?_
    rw [Int.natAbs_mul, Int.natAbs_mul, Int.natAbs_natCast, billion]
    have hdrift : a.drift.natAbs ≤ 1000000000 := by omega
    calc _ = nominalPeriod r.config.rateCode * 65536 * a.drift.natAbs := by rw [Nat.mul_right_comm]; rfl
      _ ≤ _ := Nat.mul_le_mul_left _ hdrift
  · exact Nat.zero_le _

theorem networkPeriod_nonneg {r : Station} (h : ∀ a ∈ r.active, -200000 ≤ a.drift ∧ a.drift ≤ 200000) :
    0 ≤ networkPeriod r := by
  have := periodDeviation_natAbs_le h
  rw [networkPeriod]
  omega

theorem sampleTime_eq (start period : Int) (i : Nat) :
    sampleTime start period i = start + (i * period + 32768) / 65536 := by
  rw [sampleTime, floorDiv, Int.fdiv_eq_ediv_of_nonneg _ (by decide)]

theorem sampleTime_mono {start period : Int} (h : 0 ≤ period) {i j : Nat} (hij : i ≤ j) :
    sampleTime start period i ≤ sampleTime start period j := by
  have hmul : (i : Int) * period ≤ j * period := Int.mul_le_mul_of_nonneg_right (by exact_mod_cast hij) h
  rw [sampleTime_eq, sampleTime_eq]
  omega

section Block

variable {s : State} {m : Slot} {n : StationNo} {rec : IntakeRecord} {capture : Nat}
  (h : ∀ a ∈ (s.station n).active, -200000 ≤ a.drift ∧ a.drift ≤ 200000)
include h

theorem blockTimes_ascending : ((blockTimes s n rec capture).map s.params.windowOf).Pairwise (· ≤ ·) := by
  rw [blockTimes, List.pairwise_map, List.pairwise_map]
  refine List.pairwise_lt_range.imp fun hij => Nat.div_le_div_right (Int.toNat_le_toNat ?_)
  exact sampleTime_mono (networkPeriod_nonneg h) (Nat.le_of_lt hij)

end Block

/-- Settles O33: the parts of an ascending list in the windows that hold its values. -/
theorem fragmentsPartitionTheBlock : Obligations.FragmentsPartitionTheBlock := by
  intro s m n rec capture c hlength hdrift hc
  obtain ⟨-, hspan, hfragments⟩ := correct_ok hc
  have hascending := blockTimes_ascending (rec := rec) (capture := capture) hdrift
  have hcount (w : Nat) : (makeFragment s m n rec (uncertaintyNow s n rec) (blockTimes s n rec capture) w).2.count =
      ((blockTimes s n rec capture).map s.params.windowOf).count w := runIn_count ..
  have hwindows : c.fragments.map Prod.fst = windowsOf s.params (blockTimes s n rec capture) := by
    rw [hfragments, List.map_map]
    exact List.map_id _
  refine ⟨hwindows ▸ windowsOf_ascending hascending, by rwa [hfragments, List.length_map], ?_,
    fun before after wf hwf => ?_⟩
  · rw [hfragments, List.map_map]
    refine (congrArg List.sum (List.map_congr_left fun w _ => hcount w)).trans ?_
    rw [sum_counts hascending, blockTimes, List.length_map, List.length_range]
  · rw [hfragments, List.map_eq_append_iff] at hwf
    obtain ⟨before', rest, hsplit, rfl, hrest⟩ := hwf
    obtain ⟨w, after', rfl, rfl, rfl⟩ := List.map_eq_cons_iff.mp hrest
    obtain ⟨hpos, -, -, hfirst, hlast⟩ := runIn_times hlength hascending (w := w) (by simp [hsplit])
    refine ⟨?_, hpos, hfirst, hlast⟩
    rw [List.map_map]
    refine (runIn_first hlength _ w).trans ?_
    rw [← sum_counts_before hascending hsplit]
    exact congrArg List.sum (List.map_congr_left fun v _ => (hcount v).symm)

end Sys2Proof.Machine

/-! PROOFS. The correction of a block by its station's mode (R65 to R75). -/

namespace Sys2Proof.Machine

theorem ceilDiv_eq (k : Nat) {b : Nat} (hb : 0 < b) : ceilDiv k b = (k + (b - 1)) / b := by
  rw [ceilDiv, Nat.add_sub_assoc hb]

section Modes

variable {s : State} {m : Slot} {n : StationNo} {rec : IntakeRecord} {capture : Nat} {a : ActiveModel}

/-- The period deviation is the active model's, of a PROBED station. -/
theorem periodDeviation_eq {r : Station} (h : r.config.mode = .probed → r.active = some a) :
    periodDeviation r =
      if r.config.mode = .probed then roundDiv (nominalPeriod r.config.rateCode * a.drift * 65536) 1000000000 else 0 := by
  unfold periodDeviation
  cases hmode : r.config.mode with
  | probed => rw [h hmode]; rfl
  | satellite | arrival => rfl

theorem blockRevision_eq {r : Station} (h : r.config.mode = .probed → r.active = some a) :
    blockRevision r = if r.config.mode = .probed then a.revision else 0 := by
  unfold blockRevision
  cases hmode : r.config.mode with
  | probed => rw [h hmode]; rfl
  | satellite | arrival => rfl

theorem blockAcquiring_eq {r : Station} (h : r.config.mode = .probed → r.active = some a) :
    blockAcquiring r = (decide (r.config.mode = .probed) && !a.estimated) := by
  unfold blockAcquiring
  cases hmode : r.config.mode with
  | probed => rw [h hmode]; rfl
  | satellite | arrival => rfl

theorem blockReference_eq (s : State) (n : StationNo) (rec : IntakeRecord) : blockReference s n rec =
    match (s.station n).config.mode with
    | .satellite => extendStamp rec.stamp s.timebase.us
    | .probed => (match (s.station n).horizon with | some h => extendStamp rec.stamp h | none => rec.stamp)
    | .arrival => 0 := by
  unfold blockReference blockStamp
  cases (s.station n).config.mode with
  | probed => exact extendAgainst_horizon ..
  | satellite | arrival => rfl

theorem blockStamp_toNat (s : State) (n : StationNo) (rec : IntakeRecord) :
    (blockStamp (s.station n) s.timebase.us rec).map Int.toNat =
      if (s.station n).config.mode = .arrival then none else some (blockReference s n rec).toNat := by
  unfold blockReference blockStamp
  cases (s.station n).config.mode <;> rfl

theorem blockStart_eq (h : (s.station n).config.mode = .probed → (s.station n).active = some a) :
    blockStart s n rec capture =
      match (s.station n).config.mode with
      | .satellite => blockReference s n rec + (s.station n).config.fixedDelay
      | .probed => blockReference s n rec + roundDiv a.offset 2
          + roundDiv ((blockReference s n rec - a.reference) * a.drift) 1000000000 + (s.station n).config.fixedDelay
      | .arrival => (capture : Int) - (s.station n).config.linkLatency
          - rec.count * nominalPeriod (s.station n).config.rateCode + (s.station n).config.fixedDelay := by
  unfold blockStart correctedStart
  cases hmode : (s.station n).config.mode with
  | probed => rw [h hmode]; rfl
  | satellite | arrival => rfl

theorem uncertaintyNow_eq (h : (s.station n).config.mode = .probed → (s.station n).active = some a) :
    uncertaintyNow s n rec = min 16777215 (match (s.station n).config.mode with
      | .satellite => s.params.satBase + (rec.seconds * s.params.satGrowth + 999) / 1000
          + hubTerm s.timebase s.params.hubGrowth
      | .probed => (a.delay + 1) / 2
          + ((blockReference s n rec - a.reference).natAbs * s.params.probeGrowth + 999999999) / 1000000000
          + hubTerm s.timebase s.params.hubGrowth
      | .arrival => (s.station n).config.jitterBound + hubTerm s.timebase s.params.hubGrowth) := by
  unfold uncertaintyNow blockUncertainty
  cases hmode : (s.station n).config.mode with
  | probed =>
    rw [h hmode]
    simp only [ceilDiv_eq _ (show 0 < billion by decide), ceilDiv_eq _ (show 0 < 2 by decide)]
    rfl
  | satellite =>
    simp only [ceilDiv_eq _ (show 0 < 1000 by decide)]
    rfl
  | arrival => rfl

theorem blockTime_eq (s : State) (n : StationNo) (rec : IntakeRecord) (capture i : Nat) :
    blockTime s n rec capture i = blockStart s n rec capture
      + (i * (nominalPeriod (s.station n).config.rateCode * 65536 + periodDeviation (s.station n)) + 32768) / 65536 :=
  sampleTime_eq ..

theorem blockStart_le_blockTime (h : ∀ a ∈ (s.station n).active, -200000 ≤ a.drift ∧ a.drift ≤ 200000) (i : Nat) :
    blockStart s n rec capture ≤ blockTime s n rec capture i := by
  have hperiod : 0 ≤ (i : Int) * networkPeriod (s.station n) := mul_nonneg (Int.natCast_nonneg i) (networkPeriod_nonneg h)
  rw [blockTime, sampleTime_eq]
  omega

/-- The number of windows of a block counts those that its samples name. -/
theorem length_windowsOf_blockTimes (h : ∀ a ∈ (s.station n).active, -200000 ≤ a.drift ∧ a.drift ≤ 200000) :
    (windowsOf s.params (blockTimes s n rec capture)).length = ((List.range rec.count).map fun i =>
      (blockTime s n rec capture i).toNat / (1000000 * s.params.windowLength)).dedup.length := by
  rw [(windowsOf_perm (blockTimes_ascending h)).length_eq, blockTimes, List.map_map]
  rfl

/-- The fields of a fragment that are its block's and its station's (R73, R75). -/
theorem makeFragment_eq (h : (s.station n).config.mode = .probed → (s.station n).active = some a) (u : Nat)
    (times : List Nat) (w : Nat) : (makeFragment s m n rec u times w).2 =
      { station := n, source := m, handle := rec.tag, sequence := rec.sequence
        firstIndex := (runIn s.params times w).1
        count := (runIn s.params times w).2.1
        firstTime := (runIn s.params times w).2.2.1
        lastTime := (runIn s.params times w).2.2.2
        uncertainty := u
        deviation := periodDeviation (s.station n)
        revision := if (s.station n).config.mode = .probed then a.revision else 0
        loose := false
        overlap := false
        acquiring := decide ((s.station n).config.mode = .probed) && !a.estimated
        hubHoldover := decide (s.timebase.discipline ≠ .locked)
        satUnlocked := decide ((s.station n).config.mode = .satellite) && !rec.lockFlag
        satStale := decide ((s.station n).config.mode = .satellite ∧ s.params.staleLimit ≤ rec.seconds)
        arrival := decide ((s.station n).config.mode = .arrival) } := by
  rw [← blockRevision_eq h, ← blockAcquiring_eq h]
  simp [makeFragment, bne, beq_eq_decide]

/-- The first and the last sample time of a fragment are those of its samples (R70, R73). -/
theorem runIn_blockTimes (hp : 0 < s.params.windowLength)
    (h : ∀ a ∈ (s.station n).active, -200000 ≤ a.drift ∧ a.drift ≤ 200000) {w : Nat}
    (hw : w ∈ windowsOf s.params (blockTimes s n rec capture)) :
    let part := runIn s.params (blockTimes s n rec capture) w
    part.2.2.1 = (blockTime s n rec capture part.1).toNat
      ∧ part.2.2.2 = (blockTime s n rec capture (part.1 + part.2.1 - 1)).toNat := by
  intro part
  obtain ⟨-, hfirst, hlast, -, -⟩ := runIn_times hp (blockTimes_ascending h) hw
  have hget (i t : Nat) (hi : (blockTimes s n rec capture)[i]? = some t) : t = (blockTime s n rec capture i).toNat := by
    rw [blockTimes, List.getElem?_map, Option.map_eq_some_iff] at hi
    obtain ⟨k, hk, rfl⟩ := hi
    obtain ⟨hlt, hk⟩ := List.getElem?_eq_some_iff.mp hk
    rw [← hk, List.getElem_range]
  exact ⟨hget _ _ hfirst, hget _ _ hlast⟩

end Modes

/-- Settles O34: each part of the correction by mode. -/
theorem blocksAreCorrectedByMode : Obligations.BlocksAreCorrectedByMode := by
  refine ⟨fun x b hb => roundDiv_nearest x hb, rfl, fun s m n rec capture a hlength hcount hactive hprobed => ?_⟩
  intro r mode period x start deviation time outOfRange windows hub uncertainty
  have hdrift : ∀ y ∈ (s.station n).active, -200000 ≤ y.drift ∧ y.drift ≤ 200000 := fun y hy => (hactive y hy).2
  have hx : blockReference s n rec = x := blockReference_eq s n rec
  have hstart : blockStart s n rec capture = start := by
    have hmode := blockStart_eq (rec := rec) (capture := capture) hprobed
    rw [hx] at hmode
    exact hmode
  have hdeviation : periodDeviation (s.station n) = deviation := periodDeviation_eq hprobed
  have huncertainty : uncertaintyNow s n rec = min 16777215 uncertainty := by
    have hmode := uncertaintyNow_eq (rec := rec) hprobed
    rw [hx] at hmode
    exact hmode
  have htime (i : Nat) : blockTime s n rec capture i = time i := by
    rw [blockTime_eq, hstart, hdeviation]
  have hrange : BlockOutOfRange s n rec capture ↔ outOfRange := by
    rw [BlockOutOfRange, hx, hstart, htime]
  have hwindows : (windowsOf s.params (blockTimes s n rec capture)).length = windows := by
    simp only [length_windowsOf_blockTimes hdrift, htime]
    rfl
  refine ⟨fun hout => correct_of_outOfRange (hrange.mpr hout),
    fun hin hspan => correct_of_span (mt hrange.mp hin) (hwindows ▸ hspan), fun hin hspan => ?_⟩
  refine ⟨_, correct_of_ok (mt hrange.mp hin) (hwindows ▸ hspan), ?_, ?_, fun wf hwf => ?_⟩
  · rw [← hx]
    exact blockStamp_toNat s n rec
  · dsimp only
    rw [htime]
    have hpositive : 0 ≤ start := Int.not_lt.mp fun hneg => hin (.inr (.inl hneg))
    have hlater : start ≤ time (rec.count - 1) := by
      rw [← hstart, ← htime]
      exact blockStart_le_blockTime hdrift _
    exact Int.toNat_of_nonneg (hpositive.trans hlater)
  · obtain ⟨w, hw, rfl⟩ := List.mem_map.mp hwf
    obtain ⟨hfirst, hlast⟩ := runIn_blockTimes hlength hdrift hw
    rw [htime] at hfirst hlast
    rw [makeFragment_eq hprobed, hfirst, hlast, huncertainty, hdeviation]

end Sys2Proof.Machine
